-- ==== Sys2Proof/Word.lean ====
section
/-! DEFINITION. The bit widths of the block's values (00_scope R6): every value is an unsigned integer of 8, 16 or
32 bits, or a byte sequence. Offsets into the register space have 13 bits (10_state R22, 20_memory R42). -/

namespace Sys2Proof

/-- An unsigned 8-bit value: one byte of a buffer, an index field, the checksum (R6). -/
abbrev Byte := BitVec 8

/-- An unsigned 16-bit value: `payload_length` (R6). -/
abbrev Half := BitVec 16

/-- An unsigned 32-bit value: a bus word, a serial number, a timestamp (R6). -/
abbrev Word := BitVec 32

/-- A byte offset from the block's base: 13 bits, 0x0000 to 0x1FFF (R42). Log 9. -/
abbrev Offset := BitVec 13

end Sys2Proof
end

