-- ==== Sys2Proof/Syntax.lean ====
section
/-! DEFINITION. The commands of the block, one constructor per row of spec/opcode_table.json (30_encoding R63). -/

namespace Sys2Proof

/-- A command. The only operand a command word carries is the immediate of CSUM_ADD (R18, R64). -/
inductive Instr where
  /-- PARSE_HDR, R81. -/
  | parseHdr
  /-- CSUM_CLR, R97. -/
  | csumClr
  /-- CSUM_ADD imm8, R98. -/
  | csumAdd (imm : Byte)
  /-- CSUM_IN, R99. -/
  | csumIn
  /-- BUILD_RSP, R105. -/
  | buildRsp
  deriving DecidableEq, Repr

end Sys2Proof
end

