-- ==== Sys2Proof/Decode.lean ====
section
/-! DEFINITION. The decoder of command words (30_encoding R61 to R65) and the encoder written from the same tables.
A command is always one 32-bit word (R61, R73), taken from the write to CMD (20_memory R58). -/

namespace Sys2Proof

/-- OP, bits 7 to 0 (R62). -/
def fieldOp (w : Word) : Byte := w.extractLsb' 0 8

/-- IMM8, bits 15 to 8 (R62, R64). -/
def fieldImm8 (w : Word) : Byte := w.extractLsb' 8 8

/-- RSV, bits 31 to 16 (R62). -/
def fieldRsv (w : Word) : Half := w.extractLsb' 16 16

/-- Why a word is no command. The block tells the three apart nowhere: each one is ILLEGAL_COMMAND (R65). -/
inductive DecodeError where
  /-- OP is 0x00 or 0x06 to 0xFF (R63). -/
  | reservedOp
  /-- RSV is not zero (R62). -/
  | reservedBits
  /-- IMM8 is not zero in a command that has no operand (R64, R65). -/
  | strayImmediate
  deriving DecidableEq, Repr

/-- A command without an operand: IMM8 must be zero (R65). -/
def decodePlain (w : Word) (i : Instr) : Except DecodeError Instr :=
  if fieldImm8 w = 0 then .ok i else .error .strayImmediate

/-- The command a word stands for (R62, R63), or why it stands for none (R65). -/
def decode (w : Word) : Except DecodeError Instr :=
  if fieldRsv w ≠ 0 then .error .reservedBits
  else if fieldOp w = 0x01 then decodePlain w .parseHdr
  else if fieldOp w = 0x02 then decodePlain w .csumClr
  else if fieldOp w = 0x03 then .ok (.csumAdd (fieldImm8 w))
  else if fieldOp w = 0x04 then decodePlain w .csumIn
  else if fieldOp w = 0x05 then decodePlain w .buildRsp
  else .error .reservedOp

/-- Format C: RSV = 0, IMM8, OP, from bit 31 down (R62). -/
def formatC (imm op : Byte) : Word := (0#16 ++ imm ++ op : BitVec (16 + 8 + 8))

/-- The word of a command (R63). -/
def encode : Instr → Word
  | .parseHdr => formatC 0x00 0x01
  | .csumClr => formatC 0x00 0x02
  | .csumAdd imm => formatC imm 0x03
  | .csumIn => formatC 0x00 0x04
  | .buildRsp => formatC 0x00 0x05

/-- The instruction the decoder reads from the `nbits` bits `w`, numbered as the opcode table numbers them; bits above
`nbits` are zero. A command has 32 bits (R61), so no more than 32 are read. Log 14. -/
def decodeTableWord (nbits w : Nat) : Option Instr :=
  if nbits ≤ 32 then (decode (BitVec.ofNat 32 (w % 2 ^ nbits))).toOption else none

end Sys2Proof
end

