-- ==== Sys2Proof/Config.lean ====
section
/-! DEFINITION. What the spec leaves to the implementation (R5: the two buffer capacities) and the one free value
(R40: the time input). None of them has a value in Lean, so every theorem holds for all of them. -/

namespace Sys2Proof

/-- IN_CAP less its minimum of 11: any number from 0 to 4085 (R5). Left open; log 5. -/
opaque Config.inCapExtra : Fin 4086

/-- REQ_CAP less its minimum of 1: any number from 0 to 255 (R5). Left open; log 5. -/
opaque Config.reqCapExtra : Fin 256

/-- IN_CAP, the number of bytes of IN_BUF: 11 to 4096 (R5). -/
def Config.inCap : Nat := 11 + Config.inCapExtra.val

/-- REQ_CAP, the number of bytes of REQ_BUF: 1 to 256 (R5). -/
def Config.reqCap : Nat := 1 + Config.reqCapExtra.val

/-- The time input `now`, as the free draw of R40: `Config.now k` is what the k-th sample reads. Nothing relates
two samples, and no value is known of any. Log 4. -/
opaque Config.now : Nat → Word

end Sys2Proof
end

