-- ==== Sys2Proof/Machine/State.lean ====
section
/-! DEFINITION. The state of the machine as plain data: the block's elements (10_state R20), the model's two marks
(R20, 60_exceptions R140), and the host's program and its index (R19). -/

namespace Sys2Proof.Machine

/-- A byte buffer of which some bytes may be unwritten (R25, R34): the written bytes as (index, byte) pairs, indexes
strictly rising. An index that is not listed is an unwritten byte. Log 6. -/
abbrev Memory := List Host.Cell

/-- The canonical form of a memory: indexes strictly rising. -/
abbrev Memory.wf (m : Memory) : Prop := m.Pairwise fun c d => c.1 < d.1

/-- The three byte buffers of R22. -/
inductive Buf where
  /-- IN_BUF, the inbound frame (R25). -/
  | inBuf
  /-- REQ_BUF, the request payload (R34). -/
  | reqBuf
  /-- OUT_BUF, the response frame (R38). -/
  | outBuf
  deriving DecidableEq, Repr

/-- The hardware errors of 60_exceptions R121. Each is an ordinary step that leaves its code in STATUS.ERR. -/
inductive HwError where
  /-- PARSE_HDR with IN_LEN < 11 (R122). -/
  | formatError
  /-- BUILD_RSP with REQ_LEN = 0 (R123). -/
  | argumentError
  /-- BUILD_RSP with HDR_VALID = 0 (R124). -/
  | noHeader
  /-- BUILD_RSP with HDR_TYPE < 0x30 (R125). -/
  | respTypeRange
  /-- A write to CMD of a word that is no command (R126). -/
  | illegalCommand
  deriving DecidableEq, Repr

/-- The model's faults. None of them exists on the hardware (R140). -/
inductive Fault where
  /-- `fault Uninit(element, i)` of R16: byte i of a buffer was read and no write has set it since reset. Raised by a host
  read (R51), PARSE_HDR (R88), CSUM_IN (R99) and BUILD_RSP (R105). Safe: the hardware goes on with an unspecified
  byte, the model stops. Log 6. -/
  | uninit (element : Buf) (i : Nat)
  deriving DecidableEq, Repr

/-- Why the model has no step for an access (R140). None of them exists on the hardware, which behaves in an unspecified
way there. All are safe: the model stops where the hardware goes on. Log 8. -/
inductive Refusal where
  /-- Raised by an arm of exec whose command has no meaning yet. Safe. -/
  | notModelled (mnemonic : String)
  /-- Raised by an access that is neither 1 nor 4 bytes wide (R43). Safe. -/
  | badWidth
  /-- Raised by a 1-byte access to the register region (R44). Safe. -/
  | narrowRegister
  /-- Raised by a misaligned 4-byte access to the register region (R44). Safe. -/
  | misalignedRegister
  /-- Raised by an access at an offset that maps nothing, a window offset beyond its capacity among them (R45, R47). Safe. -/
  | reservedOffset
  /-- Raised by a misaligned 4-byte access to a window (R45). Safe. -/
  | misalignedWindow
  /-- Raised by a 4-byte access to a window of which some byte maps nothing (R45). Safe. -/
  | pastCapacity
  /-- Raised by a write to a register or window that the host cannot write (R48). Safe. -/
  | readOnly
  deriving DecidableEq, Repr

/-- One bus access of the host (R14, R43): n bytes at a byte offset. A 1-byte access uses bits 7 to 0 of the bus value. -/
inductive Access where
  /-- `MemRead(addr, n)`. -/
  | read (addr : Offset) (n : Nat)
  /-- `MemWrite(addr, n, v)`. -/
  | write (addr : Offset) (n : Nat) (v : Word)
  deriving DecidableEq, Repr

/-- What the block can be given from outside, in the order it happens: the host's accesses (R19) and the reset input
(R142). Log 3. -/
inductive Input where
  /-- A bus access. -/
  | access (a : Access)
  /-- The reset input. -/
  | reset
  deriving DecidableEq, Repr

/-- The five fields of a header, in the order of 30_encoding R66. -/
structure Header where
  plen : Half
  type : Byte
  ridx : Byte
  qidx : Byte
  serial : Word
  deriving DecidableEq, Repr

/-- The whole state. The first sixteen fields are R20's tuple. -/
structure State where
  /-- IN_BUF (R25): the bytes written since reset. -/
  inBuf : Memory
  /-- IN_LEN (R26). -/
  inLen : Nat
  /-- HDR_PLEN (R27). -/
  hdrPlen : Half
  /-- HDR_TYPE (R28). -/
  hdrType : Byte
  /-- HDR_RIDX (R29). -/
  hdrRidx : Byte
  /-- HDR_QIDX (R30). -/
  hdrQidx : Byte
  /-- HDR_SERIAL (R31). -/
  hdrSerial : Word
  /-- HDR_VALID (R32). -/
  hdrValid : Bool
  /-- CSUM_ACC (R33). -/
  csumAcc : Byte
  /-- REQ_BUF (R34): the bytes written since reset. -/
  reqBuf : Memory
  /-- REQ_LEN (R35). -/
  reqLen : Nat
  /-- TS_VAL (R36). -/
  tsVal : Word
  /-- TS_EXPLICIT, bit 0 of TS_CTRL (R37). -/
  tsExplicit : Bool
  /-- OUT_BUF (R38). -/
  outBuf : Vector Byte 23
  /-- OUT_LEN (R39). -/
  outLen : Nat
  /-- ERR, the STATUS.ERR field (R24, R121). -/
  err : BitVec 4
  /-- The mark FAULT (R20, R140): the fault that ended the run. Log 1. -/
  faultMark : Option Fault
  /-- The mark of a refused run (R140). Log 1. -/
  refusedMark : Option Refusal
  /-- The host's program: its list of accesses (R19), with the reset inputs among them. Log 2, log 3. -/
  program : List Input
  /-- The index into that list, the program counter of a host program (R19). -/
  pc : Nat
  /-- The values the host's reads returned, oldest first (30_encoding R75). The model's own field; log 2. -/
  results : List Word
  /-- How many times the time input was sampled (R40). The model's own field; log 4. -/
  nowDraws : Nat
  deriving DecidableEq, Repr

/-- The machine right after reset (70_reset R141): buffers unwritten, every register 0, the block idle (R142). The last
six fields are the model's own start values (log 1, log 2, log 4). -/
def State.reset : State where
  inBuf := []
  inLen := 0
  hdrPlen := 0
  hdrType := 0
  hdrRidx := 0
  hdrQidx := 0
  hdrSerial := 0
  hdrValid := false
  csumAcc := 0
  reqBuf := []
  reqLen := 0
  tsVal := 0
  tsExplicit := false
  outBuf := Vector.replicate 23 0
  outLen := 0
  err := 0
  faultMark := none
  refusedMark := none
  program := []
  pc := 0
  results := []
  nowDraws := 0

end Sys2Proof.Machine
end

