-- ==== Sys2Proof/Machine/Flags.lean ====
section
/-! DEFINITION. The status flags: the error codes (60_exceptions R121), OUT_VALID and the STATUS word (10_state R24).
The block has no other condition flags (R41), and the checksum keeps no carry (41_checksum R101). -/

namespace Sys2Proof.Machine

/-- The code of success (R121). -/
def okCode : BitVec 4 := 0

/-- The code an error leaves in STATUS.ERR (R121). -/
def HwError.code : HwError → BitVec 4
  | .formatError => 1
  | .argumentError => 2
  | .noHeader => 3
  | .respTypeRange => 4
  | .illegalCommand => 5

/-- STATUS.OUT_VALID: OUT_LEN is 23 (R24, R39). -/
def State.outValid (s : State) : Bool := s.outLen == 23

/-- The STATUS register: ERR in bits 3 to 0, HDR_VALID in bit 8, OUT_VALID in bit 9, the rest 0 (R24). -/
def State.statusWord (s : State) : Word :=
  (0#22 ++ BitVec.ofBool s.outValid ++ BitVec.ofBool s.hdrValid ++ 0#4 ++ s.err : BitVec (22 + 1 + 1 + 4 + 4))

/-- The TS_CTRL register: TS_EXPLICIT in bit 0, the rest 0 (R37). -/
def State.tsCtrlWord (s : State) : Word := (BitVec.ofBool s.tsExplicit).setWidth 32

end Sys2Proof.Machine
end

