-- ==== Sys2Proof/Machine/Ops.lean ====
section
/-! DEFINITION. The named operations over memory and registers, and the one operation that takes a hardware error
(00_scope R15, 60_exceptions R121 to R128). -/

namespace Sys2Proof.Machine

/-- The byte at an index, or none where no write has set it since reset (R25). -/
def Memory.read : Memory → Nat → Option Byte
  | [], _ => none
  | (k, b) :: m, i => if i = k then some b else Memory.read m i

/-- The memory with one byte stored and so marked written (R50), in canonical form. -/
def Memory.write : Memory → Nat → Byte → Memory
  | [], i, b => [(i, b)]
  | (k, c) :: m, i, b =>
    if i < k then (i, b) :: (k, c) :: m
    else if i = k then (i, b) :: m
    else (k, c) :: Memory.write m i b

/-- Byte i of a buffer; `fault Uninit` where no write has set it (R16, R51). OUT_BUF is never unwritten (R38), and it has
no byte past its 23. -/
def State.readByte (s : State) (e : Buf) (i : Nat) : Except Fault Byte :=
  match (match e with
    | .inBuf => s.inBuf.read i
    | .reqBuf => s.reqBuf.read i
    | .outBuf => s.outBuf[i]?) with
  | some b => .ok b
  | none => .error (.uninit e i)

/-- `STATUS.ERR <- c` (R15). -/
def State.setErr (s : State) (c : BitVec 4) : State := { s with err := c }

/-- The five header registers and HDR_VALID (R27 to R32). -/
def State.setHeader (s : State) (h : Header) (valid : Bool) : State :=
  { s with hdrPlen := h.plen, hdrType := h.type, hdrRidx := h.ridx, hdrQidx := h.qidx,
           hdrSerial := h.serial, hdrValid := valid }

/-- `CSUM_ACC <- v` (R33). -/
def State.setCsumAcc (s : State) (v : Byte) : State := { s with csumAcc := v }

/-- OUT_BUF and OUT_LEN (R38, R39). -/
def State.setOut (s : State) (frame : Vector Byte 23) (len : Nat) : State :=
  { s with outBuf := frame, outLen := len }

/-- One sample of the time input was taken (R40). -/
def State.drawNow (s : State) : State := { s with nowDraws := s.nowDraws + 1 }

/-- `IN_LEN <- n` (R26). -/
def State.setInLen (s : State) (n : Nat) : State := { s with inLen := n }

/-- `REQ_LEN <- n` (R35). -/
def State.setReqLen (s : State) (n : Nat) : State := { s with reqLen := n }

/-- `TS_VAL <- v` (R36). -/
def State.setTsVal (s : State) (v : Word) : State := { s with tsVal := v }

/-- `TS_EXPLICIT <- b` (R37). -/
def State.setTsExplicit (s : State) (b : Bool) : State := { s with tsExplicit := b }

/-- `IN_BUF[i] <- b`, which marks the byte written (R50). -/
def State.writeInBuf (s : State) (i : Nat) (b : Byte) : State := { s with inBuf := s.inBuf.write i b }

/-- `REQ_BUF[i] <- b`, which marks the byte written (R50). -/
def State.writeReqBuf (s : State) (i : Nat) (b : Byte) : State := { s with reqBuf := s.reqBuf.write i b }

/-- A read's value is shown in the program's result (R75). -/
def State.pushResult (s : State) (v : Word) : State := { s with results := s.results ++ [v] }

/-- The host's index moves past one input (R19). -/
def State.advance (s : State) : State := { s with pc := s.pc + 1 }

/-- All header registers cleared: no header (R85). -/
def Header.zero : Header := { plen := 0, type := 0, ridx := 0, qidx := 0, serial := 0 }

/-- What an error changes besides STATUS.ERR: FORMAT_ERROR clears the header registers and HDR_VALID (R85); the three errors
of BUILD_RSP write 0x00 to OUT_BUF and set OUT_LEN = 0 (R115); ILLEGAL_COMMAND changes nothing (R126). -/
def State.errorEffects (s : State) : HwError → State
  | .formatError => s.setHeader Header.zero false
  | .argumentError => s.setOut (Vector.replicate 23 0) 0
  | .noHeader => s.setOut (Vector.replicate 23 0) 0
  | .respTypeRange => s.setOut (Vector.replicate 23 0) 0
  | .illegalCommand => s

/-- `raise E` (R15): the error's effects, then its code in STATUS.ERR. Nothing is saved, no mode changes and there is no
handler (R131), so there is no return from it either (R132). -/
def State.takeError (s : State) (e : HwError) : State := (s.errorEffects e).setErr e.code

/-- A command that ends without `raise` writes 0 to STATUS.ERR (R15, R127). -/
def State.succeed (s : State) : State := s.setErr okCode

/-- The reset input (R141, R142): every element of the block takes its reset value. The host's program, its index and
results, the count of time samples and the marks are not the block's and stay. Log 3. -/
def State.resetBlock (s : State) : State :=
  { State.reset with
    program := s.program, pc := s.pc, results := s.results, nowDraws := s.nowDraws,
    faultMark := s.faultMark, refusedMark := s.refusedMark }

end Sys2Proof.Machine
end

