-- ==== Sys2Proof/Machine/Operands.lean ====
section
/-! DEFINITION. The operand forms: little-endian fields of a byte sequence (00_scope R11, R12; 20_memory R53), slices (R8),
and the fixed-offset reads the commands and the bus make of a buffer. -/

namespace Sys2Proof.Machine

/-- `le16` of two consecutive bytes, the lowest offset first (R11). -/
def le16 (b0 b1 : Byte) : Half := b0.setWidth 16 ||| (b1.setWidth 16 <<< 8)

/-- `le32` of four consecutive bytes, the lowest offset first (R11). -/
def le32 (b0 b1 b2 b3 : Byte) : Word :=
  b0.setWidth 32 ||| (b1.setWidth 32 <<< 8) ||| (b2.setWidth 32 <<< 16) ||| (b3.setWidth 32 <<< 24)

/-- Bits 8k+7 to 8k of a word (R7). -/
def byteOf (v : Word) (k : Nat) : Byte := v.extractLsb' (8 * k) 8

/-- `enc_le16` (R12). -/
def encLe16 (v : Half) : List Byte := [v.extractLsb' 0 8, v.extractLsb' 8 8]

/-- `enc_le32` (R12). -/
def encLe32 (v : Word) : List Byte := [byteOf v 0, byteOf v 1, byteOf v 2, byteOf v 3]

/-- `B[a:b]`, the half-open slice (R8). -/
def slice (bs : List Byte) (a b : Nat) : List Byte := (bs.drop a).take (b - a)

/-- `le16(BUF, o)`, byte by byte, at any alignment (R54). -/
def State.readLe16 (s : State) (e : Buf) (o : Nat) : Except Fault Half := do
  let b0 ← s.readByte e o
  let b1 ← s.readByte e (o + 1)
  .ok (le16 b0 b1)

/-- `le32(BUF, o)`, byte by byte, at any alignment (R46, R54). -/
def State.readLe32 (s : State) (e : Buf) (o : Nat) : Except Fault Word := do
  let b0 ← s.readByte e o
  let b1 ← s.readByte e (o + 1)
  let b2 ← s.readByte e (o + 2)
  let b3 ← s.readByte e (o + 3)
  .ok (le32 b0 b1 b2 b3)

/-- `BUF[o : o + n]`, read in index order; the first unwritten byte faults. Log 7. -/
def State.readBytes (s : State) (e : Buf) (o : Nat) : Nat → Except Fault (List Byte)
  | 0 => .ok []
  | n + 1 => do
    let b ← s.readByte e o
    let bs ← s.readBytes e (o + 1) n
    .ok (b :: bs)

/-- The header at its fixed offsets: bytes [1:3], [4], [5], [6] and [7:11], and no other byte (R66, R83, R88). -/
def State.readHeader (s : State) : Except Fault Header := do
  let plen ← s.readLe16 .inBuf 1
  let type ← s.readByte .inBuf 4
  let ridx ← s.readByte .inBuf 5
  let qidx ← s.readByte .inBuf 6
  let serial ← s.readLe32 .inBuf 7
  .ok { plen := plen, type := type, ridx := ridx, qidx := qidx, serial := serial }

end Sys2Proof.Machine
end

