-- ==== Sys2Proof/Machine/Checksum.lean ====
section
/-! DEFINITION. The checksum function (41_checksum R94) and the commands CSUM_CLR, CSUM_ADD and CSUM_IN. -/

namespace Sys2Proof.Machine

/-- `v mod 256` as a byte: the mask of R94. -/
def mask8 (v : Nat) : Byte := BitVec.ofNat 8 (v % 256)

/-- One step of the loop: `acc <- (acc + byte) mod 256`; the carry is kept nowhere (R101). -/
def csumStep (acc b : Byte) : Byte := mask8 (acc.toNat + b.toNat)

/-- The loop of R94 from a given accumulator, with the final mask of R95. -/
def csumFrom (acc : Byte) (bs : List Byte) : Byte := mask8 (bs.foldl csumStep acc).toNat

/-- `checksum8(B)` (R94). -/
def checksum8 (bs : List Byte) : Byte := csumFrom 0 bs

/-- CSUM_CLR (R97). -/
def execCsumClr (s : State) : Host.Outcome State Fault Refusal := .next (s.setCsumAcc 0).succeed

/-- CSUM_ADD imm8 (R98). -/
def execCsumAdd (imm : Byte) (s : State) : Host.Outcome State Fault Refusal :=
  .next (s.setCsumAcc (csumStep s.csumAcc imm)).succeed

/-- CSUM_IN (R99): every byte of IN_BUF[0:IN_LEN], onto the current CSUM_ACC. -/
def execCsumIn (s : State) : Host.Outcome State Fault Refusal :=
  match s.readBytes .inBuf 0 s.inLen with
  | .error f => .fault f
  | .ok bs => .next (s.setCsumAcc (csumFrom s.csumAcc bs)).succeed

end Sys2Proof.Machine
end

