-- ==== Sys2Proof/Machine/Builder.lean ====
section
/-! DEFINITION. BUILD_RSP (42_response_builder) and the response frame (30_encoding R69). -/

namespace Sys2Proof.Machine

/-- Step 1, the payload: ten bytes (R107, R71). -/
def responsePayload (echo : Byte) (ts : Word) : List Byte :=
  [echo, 0x01] ++ encLe32 ts ++ [0xAA, 0xAA, 0x00, 0x00]

/-- Step 2, the response type: an exact subtraction, made only when HDR_TYPE ≥ 0x30 (R108). -/
def responseType (type : Byte) : Byte := BitVec.ofNat 8 (type.toNat - 0x30)

/-- Step 3, the response header: eleven bytes, with the request index in both index slots (R109, R110). -/
def responseHeader (type qidx : Byte) (serial : Word) : List Byte :=
  [0xA5] ++ encLe16 10 ++ [0x00, responseType type, qidx, qidx] ++ encLe32 serial

/-- Step 4, header and payload: 21 bytes (R111). -/
def responseMsg (type qidx : Byte) (serial : Word) (echo : Byte) (ts : Word) : List Byte :=
  responseHeader type qidx serial ++ responsePayload echo ts

/-- Step 5, the frame: the message, its checksum over bytes 1 to 20, and the terminator (R112). -/
def responseFrame (type qidx : Byte) (serial : Word) (echo : Byte) (ts : Word) : List Byte :=
  responseMsg type qidx serial echo ts
    ++ [checksum8 (slice (responseMsg type qidx serial echo ts) 1 21), 0x15]

/-- A frame has 23 bytes (R69). -/
theorem responseFrame_length (type qidx : Byte) (serial : Word) (echo : Byte) (ts : Word) :
    (responseFrame type qidx serial echo ts).length = 23 := by
  simp [responseFrame, responseMsg, responseHeader, responsePayload, encLe16, encLe32]

/-- A 23-byte sequence as the contents of OUT_BUF (R38). -/
def outBufOf (bs : List Byte) (h : bs.length = 23) : Vector Byte 23 := ⟨⟨bs⟩, h⟩

/-- The error checks, in their order; the first that applies (R114). -/
def buildError (s : State) : Option HwError :=
  if s.hdrValid = false then some .noHeader
  else if s.reqLen = 0 then some .argumentError
  else if s.hdrType.toNat < 0x30 then some .respTypeRange
  else none

/-- The timestamp: TS_VAL, or the time input (R113). -/
def State.timestamp (s : State) : Word := if s.tsExplicit then s.tsVal else Config.now s.nowDraws

/-- The time input is sampled once, and only when TS_EXPLICIT = 0 (R40, R113). -/
def State.sampleTime (s : State) : State := if s.tsExplicit then s else s.drawNow

/-- BUILD_RSP (R105): the error checks, then the echoed byte, then the frame. A failing BUILD_RSP reads no byte and samples
no time (R113, R129). -/
def execBuildRsp (s : State) : Host.Outcome State Fault Refusal :=
  match buildError s with
  | some e => .next (s.takeError e)
  | none =>
    match s.readByte .reqBuf 0 with
    | .error f => .fault f
    | .ok echo =>
      .next ((s.setOut (outBufOf (responseFrame s.hdrType s.hdrQidx s.hdrSerial echo s.timestamp)
        (responseFrame_length ..)) 23).sampleTime).succeed

end Sys2Proof.Machine
end

