-- ==== Sys2Proof/Machine/Parser.lean ====
section
/-! DEFINITION. PARSE_HDR (40_header_parser). -/

namespace Sys2Proof.Machine

/-- PARSE_HDR (R81): FORMAT_ERROR exactly when IN_LEN < 11 (R82), before any byte is read; otherwise the five fields from
their fixed offsets (R83), with no other check (R84). -/
def execParseHdr (s : State) : Host.Outcome State Fault Refusal :=
  if s.inLen < 11 then .next (s.takeError .formatError)
  else
    match s.readHeader with
    | .error f => .fault f
    | .ok h => .next (s.setHeader h true).succeed

end Sys2Proof.Machine
end

