-- ==== Sys2Proof/Machine/Dispatch.lean ====
section
/-! DEFINITION. One arm per command: the meaning of each constructor of Instr. -/

namespace Sys2Proof.Machine

def exec (i : Instr) (s : State) : Host.Outcome State Fault Refusal :=
  match i with
  | .parseHdr => Sys2Proof.Machine.execParseHdr s
  | .csumClr => Sys2Proof.Machine.execCsumClr s
  | .csumAdd imm => Sys2Proof.Machine.execCsumAdd imm s
  | .csumIn => Sys2Proof.Machine.execCsumIn s
  | .buildRsp => Sys2Proof.Machine.execBuildRsp s

end Sys2Proof.Machine
end

