-- ==== Sys2Proof/Machine/Bus.lean ====
section
/-! DEFINITION. The host's accesses to the register space: the register map (10_state R22), which accesses are legal
(20_memory R43 to R48), and what a read and a write do (R46, R49 to R51). A write to CMD performs one command
(10_state R23). -/

namespace Sys2Proof.Machine

/-- The thirteen registers of R22. -/
inductive Reg where
  | cmd | status | inLen | reqLen | tsVal | tsCtrl | csum | outLen
  | hdrPlen | hdrType | hdrRidx | hdrQidx | hdrSerial
  deriving DecidableEq, Repr

/-- The registers in the order of their offsets, four bytes each from 0x0000 (R22). -/
def registerMap : List Reg :=
  [.cmd, .status, .inLen, .reqLen, .tsVal, .tsCtrl, .csum, .outLen,
   .hdrPlen, .hdrType, .hdrRidx, .hdrQidx, .hdrSerial]

/-- The buffer byte that a byte offset maps, for given capacities (R22). -/
def windowByte (inCap reqCap a : Nat) : Option (Buf × Nat) :=
  if 0x0100 ≤ a ∧ a < 0x0100 + reqCap then some (.reqBuf, a - 0x0100)
  else if 0x0200 ≤ a ∧ a < 0x0200 + 23 then some (.outBuf, a - 0x0200)
  else if 0x1000 ≤ a ∧ a < 0x1000 + inCap then some (.inBuf, a - 0x1000)
  else none

/-- What a legal access reaches. -/
inductive Target where
  /-- A register, whole. -/
  | reg (r : Reg)
  /-- One byte of a buffer. -/
  | byte (e : Buf) (i : Nat)
  /-- Four bytes of a buffer, the lowest at index i. -/
  | word (e : Buf) (i : Nat)
  deriving DecidableEq, Repr

/-- What an n-byte access at offset a reaches, or why it is refused (R43 to R45, R47). Log 8. -/
def locate (inCap reqCap a n : Nat) : Except Refusal Target :=
  if n ≠ 1 ∧ n ≠ 4 then .error .badWidth
  else if a < 0x0034 then
    if n = 1 then .error .narrowRegister
    else if a % 4 ≠ 0 then .error .misalignedRegister
    else match registerMap[a / 4]? with
      | some r => .ok (.reg r)
      | none => .error .reservedOffset
  else match windowByte inCap reqCap a with
    | none => .error .reservedOffset
    | some (e, i) =>
      if n = 1 then .ok (.byte e i)
      else if a % 4 ≠ 0 then .error .misalignedWindow
      else if windowByte inCap reqCap (a + 1) = some (e, i + 1)
          ∧ windowByte inCap reqCap (a + 2) = some (e, i + 2)
          ∧ windowByte inCap reqCap (a + 3) = some (e, i + 3) then .ok (.word e i)
      else .error .pastCapacity

/-- The 32-bit value a register reads as (R23 to R39); bits no rule names are 0 (R21). -/
def State.readReg (s : State) : Reg → Word
  | .cmd => 0
  | .status => s.statusWord
  | .inLen => BitVec.ofNat 32 s.inLen
  | .reqLen => BitVec.ofNat 32 s.reqLen
  | .tsVal => s.tsVal
  | .tsCtrl => s.tsCtrlWord
  | .csum => s.csumAcc.setWidth 32
  | .outLen => BitVec.ofNat 32 s.outLen
  | .hdrPlen => s.hdrPlen.setWidth 32
  | .hdrType => s.hdrType.setWidth 32
  | .hdrRidx => s.hdrRidx.setWidth 32
  | .hdrQidx => s.hdrQidx.setWidth 32
  | .hdrSerial => s.hdrSerial

/-- The bus value of a read (R46): a register's 32 bits, a byte in bits 7 to 0 (log 10), or four bytes little-endian. -/
def State.readTarget (s : State) : Target → Except Fault Word
  | .reg r => .ok (s.readReg r)
  | .byte e i => do
    let b ← s.readByte e i
    .ok (b.setWidth 32)
  | .word e i => s.readLe32 e i

/-- A length write stores min(v, capacity) (R26, R35). -/
def clampLen (cap : Nat) (v : Word) : Nat := min v.toNat cap

/-- A write of w to CMD: exactly one command, or ILLEGAL_COMMAND (R23, R65, R126). -/
def runCommand (w : Word) (s : State) : Host.Outcome State Fault Refusal :=
  match decode w with
  | .ok i => exec i s
  | .error _ => .next (s.takeError .illegalCommand)

/-- A 32-bit write to a register (R50), refused where the host cannot write it (R48). -/
def State.writeReg (s : State) (r : Reg) (v : Word) : Host.Outcome State Fault Refusal :=
  match r with
  | .cmd => runCommand v s
  | .inLen => .next (s.setInLen (clampLen Config.inCap v))
  | .reqLen => .next (s.setReqLen (clampLen Config.reqCap v))
  | .tsVal => .next (s.setTsVal v)
  | .tsCtrl => .next (s.setTsExplicit (v.getLsbD 0))
  | .status => .refused .readOnly
  | .csum => .refused .readOnly
  | .outLen => .refused .readOnly
  | .hdrPlen => .refused .readOnly
  | .hdrType => .refused .readOnly
  | .hdrRidx => .refused .readOnly
  | .hdrQidx => .refused .readOnly
  | .hdrSerial => .refused .readOnly

/-- One byte stored to a buffer the host can write (R48, R50). -/
def State.writeByte (s : State) (e : Buf) (i : Nat) (b : Byte) : Host.Outcome State Fault Refusal :=
  match e with
  | .inBuf => .next (s.writeInBuf i b)
  | .reqBuf => .next (s.writeReqBuf i b)
  | .outBuf => .refused .readOnly

/-- Four bytes stored to a buffer the host can write, little-endian (R46, R48, R50). -/
def State.writeWord (s : State) (e : Buf) (i : Nat) (v : Word) : Host.Outcome State Fault Refusal :=
  match e with
  | .inBuf => .next ((((s.writeInBuf i (byteOf v 0)).writeInBuf (i + 1) (byteOf v 1)).writeInBuf
      (i + 2) (byteOf v 2)).writeInBuf (i + 3) (byteOf v 3))
  | .reqBuf => .next ((((s.writeReqBuf i (byteOf v 0)).writeReqBuf (i + 1) (byteOf v 1)).writeReqBuf
      (i + 2) (byteOf v 2)).writeReqBuf (i + 3) (byteOf v 3))
  | .outBuf => .refused .readOnly

/-- A write of v to what a legal access reaches; a 1-byte access stores bits 7 to 0 (R46). -/
def State.writeTarget (s : State) (t : Target) (v : Word) : Host.Outcome State Fault Refusal :=
  match t with
  | .reg r => s.writeReg r v
  | .byte e i => s.writeByte e i (byteOf v 0)
  | .word e i => s.writeWord e i v

/-- `MemRead(addr, n)` (R14): changes nothing of the block (R49), shows its value to the host (R75). -/
def busRead (a : Offset) (n : Nat) (s : State) : Host.Outcome State Fault Refusal :=
  match locate Config.inCap Config.reqCap a.toNat n with
  | .error r => .refused r
  | .ok t =>
    match s.readTarget t with
    | .error f => .fault f
    | .ok v => .next (s.pushResult v)

/-- `MemWrite(addr, n, v)` (R14, R50). -/
def busWrite (a : Offset) (n : Nat) (v : Word) (s : State) : Host.Outcome State Fault Refusal :=
  match locate Config.inCap Config.reqCap a.toNat n with
  | .error r => .refused r
  | .ok t => s.writeTarget t v

/-- One input to the block: a whole access, its command included (R52, R55), or the reset input (R142). -/
def perform (x : Input) (s : State) : Host.Outcome State Fault Refusal :=
  match x with
  | .access (.read a n) => busRead a n s
  | .access (.write a n v) => busWrite a n v s
  | .reset => .next s.resetBlock

end Sys2Proof.Machine
end

