-- ==== Sys2Proof/Machine/Step.lean ====
section
/-! DEFINITION. One step: the next input of the host's list (10_state R19), performed whole (20_memory R55). -/

namespace Sys2Proof.Machine

/-- One step of the machine. A marked run stays where it is: the marks are never cleared (60_exceptions R140, log 1). Past
the end of the host's list the block is idle (70_reset R142, log 2). -/
def step (s : State) : Host.Outcome State Fault Refusal :=
  match s.faultMark with
  | some f => .fault f
  | none =>
    match s.refusedMark with
    | some r => .refused r
    | none =>
      match s.program[s.pc]? with
      | none => .next s
      | some x => perform x s.advance

/-- The state in which the next step performs the instruction of `nbits` bits `w`: the host's list is the one write of that
word to CMD (R23, R74). Log 14. -/
def State.withFetchWord (s : State) (nbits w : Nat) : State :=
  { s with program := [.access (.write 0 4 (BitVec.ofNat 32 (w % 2 ^ nbits)))], pc := 0 }

end Sys2Proof.Machine
end

