-- ==== Sys2Proof/Machine/Assembler.lean ====
section
/-! DEFINITION. The program syntax (30_encoding R74 to R76): one statement a line, each standing for host accesses. It has
no effect on what the block does (92 D25); it says which list of accesses a program text is. Log 13. -/

namespace Sys2Proof.Machine

/-- A statement with its operands in range. -/
inductive Stmt where
  /-- `WR32 off, v` (R75). -/
  | wr32 (off : Offset) (v : Word)
  /-- `WR8 off, v` (R75). -/
  | wr8 (off : Offset) (v : Byte)
  /-- `RD32 off` (R75). -/
  | rd32 (off : Offset)
  /-- `RD8 off` (R75). -/
  | rd8 (off : Offset)
  /-- A command mnemonic (R74). -/
  | command (i : Instr)
  /-- `LOAD_IN b0, …` (R76). -/
  | loadIn (bs : List Byte)
  /-- `LOAD_REQ b0, …` (R76). -/
  | loadReq (bs : List Byte)
  /-- `SET_TS t` (R76). -/
  | setTs (t : Word)
  /-- `USE_CLOCK` (R76). -/
  | useClock
  /-- `CSUM_BYTES b0, …` (R76). -/
  | csumBytes (bs : List Byte)
  /-- `CHECKSUM_OF_IN` (R76). -/
  | checksumOfIn
  deriving DecidableEq, Repr

/-- `WR32` as an input of the block. -/
def wr32Input (off : Offset) (v : Word) : Input := .access (.write off 4 v)

/-- `WR8` as an input of the block. -/
def wr8Input (off : Offset) (v : Byte) : Input := .access (.write off 1 (v.setWidth 32))

/-- A command is one write of its word to CMD (R74). -/
def commandInput (i : Instr) : Input := wr32Input 0x0000 (encode i)

/-- A number that is a byte offset of the register space (R42). -/
def offsetOf (n : Nat) : Option Offset := if n < 0x2000 then some (BitVec.ofNat 13 n) else none

/-- `WR8 base+k, bk` for each byte in order, from index k on (R76). -/
def storeBytes (base k : Nat) : List Byte → Option (List Input)
  | [] => some []
  | b :: bs => do
    let off ← offsetOf (base + k)
    let rest ← storeBytes base (k + 1) bs
    some (wr8Input off b :: rest)

/-- The accesses a statement stands for, in order (R74 to R76); none where one would lie outside the register space. -/
def expand : Stmt → Option (List Input)
  | .wr32 off v => some [wr32Input off v]
  | .wr8 off v => some [wr8Input off v]
  | .rd32 off => some [.access (.read off 4)]
  | .rd8 off => some [.access (.read off 1)]
  | .command i => some [commandInput i]
  | .loadIn bs => do
    let stores ← storeBytes 0x1000 0 bs
    some (stores ++ [wr32Input 0x0008 (BitVec.ofNat 32 bs.length)])
  | .loadReq bs => do
    let stores ← storeBytes 0x0100 0 bs
    some (stores ++ [wr32Input 0x000C (BitVec.ofNat 32 bs.length)])
  | .setTs t => some [wr32Input 0x0010 t, wr32Input 0x0014 1]
  | .useClock => some [wr32Input 0x0014 0]
  | .csumBytes bs => some (bs.map fun b => commandInput (.csumAdd b))
  | .checksumOfIn => some [commandInput .csumClr, commandInput .csumIn]

/-- The value of a digit in a base of at most 16. -/
def digitValue (base : Nat) (c : Char) : Option Nat :=
  let v :=
    if '0' ≤ c ∧ c ≤ '9' then c.toNat - '0'.toNat
    else if 'A' ≤ c ∧ c ≤ 'F' then c.toNat - 'A'.toNat + 10
    else if 'a' ≤ c ∧ c ≤ 'f' then c.toNat - 'a'.toNat + 10
    else base
  if v < base then some v else none

/-- Digits read from the left onto a value. -/
def digits (base acc : Nat) : List Char → Option Nat
  | [] => some acc
  | c :: cs => do
    let d ← digitValue base c
    digits base (acc * base + d) cs

/-- An integer in decimal, or with a `0x` prefix (R74). A sign, or no digit at all, is rejected. -/
def number : List Char → Option Nat
  | [] => none
  | '0' :: 'x' :: c :: cs => digits 16 0 (c :: cs)
  | c :: cs => digits 10 0 (c :: cs)

/-- The register names of R22 with their offsets. -/
def registerNames : List (String × Nat) :=
  [("CMD", 0x0000), ("STATUS", 0x0004), ("IN_LEN", 0x0008), ("REQ_LEN", 0x000C), ("TS_VAL", 0x0010),
   ("TS_CTRL", 0x0014), ("CSUM", 0x0018), ("OUT_LEN", 0x001C), ("HDR_PLEN", 0x0020), ("HDR_TYPE", 0x0024),
   ("HDR_RIDX", 0x0028), ("HDR_QIDX", 0x002C), ("HDR_SERIAL", 0x0030)]

/-- The window names of R75 with their bases. -/
def windowNames : List (String × Nat) := [("REQ_BUF", 0x0100), ("OUT_BUF", 0x0200), ("IN_BUF", 0x1000)]

/-- An offset operand: a register name, a window name with `+i`, or a number (R75). -/
def offsetOperand (cs : List Char) : Option Offset :=
  match registerNames.lookup (String.ofList cs) with
  | some n => offsetOf n
  | none =>
    match windowNames.lookup (String.ofList (cs.takeWhile (· != '+'))) with
    | some base => do
      let i ← number ((cs.dropWhile (· != '+')).drop 1)
      offsetOf (base + i)
    | none => do
      let n ← number cs
      offsetOf n

/-- A byte operand: an integer from 0 to 255 (R74). -/
def byteOperand (cs : List Char) : Option Byte := do
  let n ← number cs
  if n < 256 then some (BitVec.ofNat 8 n) else none

/-- A word operand: an integer of 32 bits. -/
def wordOperand (cs : List Char) : Option Word := do
  let n ← number cs
  if n < 2 ^ 32 then some (BitVec.ofNat 32 n) else none

/-- A list of byte operands. -/
def byteOperands : List (List Char) → Option (List Byte)
  | [] => some []
  | cs :: rest => do
    let b ← byteOperand cs
    let bs ← byteOperands rest
    some (b :: bs)

/-- A space or a tab. -/
def isGap (c : Char) : Bool := c == ' ' || c == '\t'

/-- Text without the gaps at its two ends. -/
def trim (cs : List Char) : List Char := (((cs.dropWhile isGap).reverse).dropWhile isGap).reverse

/-- The pieces of a text between its commas, each trimmed; an empty text has none (R76, empty operand lists). -/
def commaPieces (cs : List Char) : List (List Char) :=
  if (trim cs).isEmpty then [] else
    ((trim cs).foldr (fun c acc =>
      match c, acc with
      | ',', acc => [] :: acc
      | c, p :: ps => (c :: p) :: ps
      | c, [] => [[c]]) [[]]).map trim

/-- A statement from its mnemonic and its operands (R74 to R76); none where they do not fit. -/
def statement (mnemonic : String) (ops : List (List Char)) : Option Stmt :=
  match mnemonic, ops with
  | "WR32", [o, v] => do return .wr32 (← offsetOperand o) (← wordOperand v)
  | "WR8", [o, v] => do return .wr8 (← offsetOperand o) (← byteOperand v)
  | "RD32", [o] => do return .rd32 (← offsetOperand o)
  | "RD8", [o] => do return .rd8 (← offsetOperand o)
  | "PARSE_HDR", [] => some (.command .parseHdr)
  | "CSUM_CLR", [] => some (.command .csumClr)
  | "CSUM_ADD", [v] => do return .command (.csumAdd (← byteOperand v))
  | "CSUM_IN", [] => some (.command .csumIn)
  | "BUILD_RSP", [] => some (.command .buildRsp)
  | "LOAD_IN", bs => do return .loadIn (← byteOperands bs)
  | "LOAD_REQ", bs => do return .loadReq (← byteOperands bs)
  | "SET_TS", [t] => do return .setTs (← wordOperand t)
  | "USE_CLOCK", [] => some .useClock
  | "CSUM_BYTES", bs => do return .csumBytes (← byteOperands bs)
  | "CHECKSUM_OF_IN", [] => some .checksumOfIn
  | _, _ => none

/-- The accesses one line of a program stands for: text after `;` is a comment, and a line without a statement stands for
nothing (R75). None where the assembler rejects the line. -/
def assembleLine (line : String) : Option (List Input) :=
  let text := trim (line.toList.takeWhile (· != ';'))
  if text.isEmpty then some []
  else do
    let s ← statement (String.ofList (text.takeWhile fun c => !isGap c))
      (commaPieces (text.dropWhile fun c => !isGap c))
    expand s

/-- The host's list of accesses of a program (R75), to be placed in `State.program`. -/
def assemble : List String → Option (List Input)
  | [] => some []
  | l :: ls => do
    let x ← assembleLine l
    let xs ← assemble ls
    some (x ++ xs)

end Sys2Proof.Machine
end

