-- ==== Sys2Proof/Safety.lean ====
section
/-! DEFINITION. What counts as a safe run: one that no fault and no refusal has marked (10_state R20,
60_exceptions R140), and the sequences of steps and commands that statements speak of. -/

namespace Sys2Proof.Safety

open Sys2Proof.Machine

/-- No fault and no refusal has happened. -/
abbrev Unmarked (s : State) : Prop := s.faultMark = none ∧ s.refusedMark = none

/-- The run is unmarked and x is what the block is given next (R19). -/
abbrev Faces (s : State) (x : Input) : Prop := Unmarked s ∧ s.program[s.pc]? = some x

/-! ### the address map as statements speak of it, written from R22 and R43 to R48 apart from Machine/Bus.lean -/

/-- Where a buffer's window begins (R22). -/
def windowBase : Buf → Nat
  | .inBuf => 0x1000
  | .reqBuf => 0x0100
  | .outBuf => 0x0200

/-- How many bytes a buffer has (R20). -/
def windowSize : Buf → Nat
  | .inBuf => Config.inCap
  | .reqBuf => Config.reqCap
  | .outBuf => 23

/-- What a buffer holds at an index; none where the byte is unwritten (R25, R34). -/
def content (s : State) : Buf → Nat → Option Byte
  | .inBuf, i => s.inBuf.read i
  | .reqBuf, i => s.reqBuf.read i
  | .outBuf, i => s.outBuf[i]?

/-- The offset a maps a byte of the buffer e (R22). -/
def InWindow (e : Buf) (a : Nat) : Prop := windowBase e ≤ a ∧ a < windowBase e + windowSize e

/-- An n-byte access at offset a is legal: an aligned 4-byte access to one of the thirteen registers (R44), a 1-byte access to
a mapped byte, or an aligned 4-byte access to four mapped bytes of one window (R45). -/
def LegalAt (a n : Nat) : Prop :=
  (n = 4 ∧ a % 4 = 0 ∧ a ≤ 0x0030) ∨
  (n = 1 ∧ ∃ e, InWindow e a) ∨
  (n = 4 ∧ a % 4 = 0 ∧ ∃ e, ∀ k < 4, InWindow e (a + k))

/-- The host may write at offset a: CMD, IN_LEN, REQ_LEN, TS_VAL, TS_CTRL, REQ_BUF and IN_BUF have "W" in R22. -/
def HostWritable (a : Nat) : Prop :=
  a ∈ [0x0000, 0x0008, 0x000C, 0x0010, 0x0014] ∨ InWindow .reqBuf a ∨ InWindow .inBuf a

/-- The shape every response frame has, whatever its inputs were (30_encoding R69, 42_response_builder R117, R119). -/
structure IsFrame (v : Vector Byte 23) : Prop where
  marker : v[0] = 0xA5
  length : v[1] = 0x0A ∧ v[2] = 0x00
  zero : v[3] = 0x00
  type : v[4].toNat ≤ 0xCF
  slots : v[5] = v[6]
  one : v[12] = 0x01
  opaqueBytes : v[17] = 0xAA ∧ v[18] = 0xAA ∧ v[19] = 0x00 ∧ v[20] = 0x00
  checksum : v[21] = checksum8 (slice v.toList 1 21)
  terminator : v[22] = 0x15

/-- What holds at reset and every step keeps: the memories are in their canonical form and inside their capacities (R25, R34),
the lengths are legal (R26, R35), OUT_BUF is all zero or a frame with OUT_LEN to match (R38, R39), the header
registers are clear while no header is valid (R32), ERR is a produced code (R121), and the host's index lies in its list
(R19). -/
structure Inv (s : State) : Prop where
  inBuf_wf : s.inBuf.wf
  inBuf_bound : ∀ c ∈ s.inBuf, c.1 < Config.inCap
  reqBuf_wf : s.reqBuf.wf
  reqBuf_bound : ∀ c ∈ s.reqBuf, c.1 < Config.reqCap
  inLen_le : s.inLen ≤ Config.inCap
  reqLen_le : s.reqLen ≤ Config.reqCap
  out : (s.outLen = 0 ∧ s.outBuf = Vector.replicate 23 0) ∨ (s.outLen = 23 ∧ IsFrame s.outBuf)
  header : s.hdrValid = false →
    s.hdrPlen = 0 ∧ s.hdrType = 0 ∧ s.hdrRidx = 0 ∧ s.hdrQidx = 0 ∧ s.hdrSerial = 0
  err_le : s.err.toNat ≤ 5
  pc_le : s.pc ≤ s.program.length

/-- One step of a run with its marks: a fault or a refusal gives the step no successor and leaves its mark in the state
the step started from (R16, R140). Log 1. -/
def markedStep (s : State) : State :=
  match step s with
  | .next t => t
  | .fault f => { s with faultMark := some f }
  | .refused r => { s with refusedMark := some r }

/-- Inputs performed one after another (R55), stopping at the first fault or refusal. The host's index is not
looked at. -/
def performAll : List Input → State → Host.Outcome State Fault Refusal
  | [], s => .next s
  | x :: xs, s =>
    match perform x s with
    | .next t => performAll xs t
    | .fault f => .fault f
    | .refused r => .refused r

/-- k steps of a run with its marks. -/
def markedRun : Nat → State → State
  | 0, s => s
  | k + 1, s => markedRun k (markedStep s)

/-- Commands performed one after another, each complete before the next (R55), stopping at the first fault or
refusal. -/
def execAll : List Instr → State → Host.Outcome State Fault Refusal
  | [], s => .next s
  | i :: is, s =>
    match exec i s with
    | .next t => execAll is t
    | .fault f => .fault f
    | .refused r => .refused r

end Sys2Proof.Safety
end

