-- ==== Sys2Proof/WellFormed.lean ====
section
/-! DEFINITION. Which 32-bit words are commands at all: the three conditions of 30_encoding R65. The decoder
(Decode.lean) is written from the field table of R62 and the opcode map of R63, not from these conditions, so that the two
can be compared. An `Instr` has no ill-formed term: its one operand is a `Byte`, which is the range R64 gives it. -/

namespace Sys2Proof

/-- R65, first condition: the operation code selects a command. -/
def opSelects (w : Word) : Bool := [1, 2, 3, 4, 5].contains (w.toNat % 256)

/-- R65, second condition: the reserved field, bits 31 to 16, is zero. -/
def rsvClear (w : Word) : Bool := w.toNat / 65536 == 0

/-- R65, third condition: the immediate is zero unless the operation code is that of CSUM_ADD. -/
def immAllowed (w : Word) : Bool := w.toNat % 256 == 3 || w.toNat / 256 % 256 == 0

/-- `legal(w)` of R65. -/
def legalWord (w : Word) : Bool := opSelects w && rsvClear w && immAllowed w

end Sys2Proof
end

