-- ==== Sys2Proof/Certificates/Slice0/Obligations.lean ====
section
/-! DEFINITION. The statements for the provers, each one a numbered rule of the spec or what follows from several. A
statement about a next state writes the state out with the fields that changed; the fields it does not name are
unchanged. -/

open Sys2Proof Sys2Proof.Machine Sys2Proof.Safety

/-! ### encoding (30_encoding) -/

/-- The decoder and the encoder are inverse to each other, on every word and every command (R62, R63). -/
def Obligations.DecodeInvertsEncode : Prop :=
  ∀ (w : Word) (i : Instr), decode w = .ok i ↔ encode i = w

/-- R65: legality is the formula on the fields of R62; exactly the legal words decode; an illegal word raises ILLEGAL_COMMAND,
which changes STATUS.ERR alone; there are 260 legal words. -/
def Obligations.LegalWordsAreTheCommands : Prop :=
  (∀ w : Word, legalWord w = true ↔
    w.extractLsb' 0 8 ∈ [1#8, 2#8, 3#8, 4#8, 5#8] ∧ w.extractLsb' 16 16 = 0#16 ∧
      (w.extractLsb' 0 8 = 3#8 ∨ w.extractLsb' 8 8 = 0#8)) ∧
  (∀ w : Word, (∃ i, decode w = .ok i) ↔ legalWord w = true) ∧
  (∀ (w : Word) (s : State), legalWord w = false → runCommand w s = .next { s with err := 5 }) ∧
  (∃ l : List Word, l.Nodup ∧ l.length = 260 ∧ ∀ w, w ∈ l ↔ legalWord w = true)

/-- The twelve words of the decode table (95_test_vectors 2.4). -/
def Obligations.DecodeTableWordsDecode : Prop :=
  decode 0x00000001 = .ok .parseHdr ∧ decode 0x00000002 = .ok .csumClr ∧
  decode 0x00000003 = .ok (.csumAdd 0x00) ∧ decode 0x0000FF03 = .ok (.csumAdd 0xFF) ∧
  decode 0x00000004 = .ok .csumIn ∧ decode 0x00000005 = .ok .buildRsp ∧
  ∀ w ∈ [0x00000000#32, 0x00000006#32, 0x000000FF#32, 0x00000101#32, 0x00010003#32, 0x80000005#32],
    ∀ i, decode w ≠ .ok i

/-! ### the step (10_state R19, R23; 20_memory R55) -/

/-- A step that faces a 32-bit write of a command word to CMD is that command's meaning, with the host's index moved on; a
step that faces a read of CMD shows 0 (R23). -/
def Obligations.StepRunsDecodedCommand : Prop :=
  (∀ (s : State) (w : Word) (i : Instr), Faces s (.access (.write 0 4 w)) → decode w = .ok i →
    step s = exec i { s with pc := s.pc + 1 }) ∧
  (∀ s : State, Faces s (.access (.read 0 4)) →
    step s = .next { s with pc := s.pc + 1, results := s.results ++ [0] })

/-- The next step after `withFetchWord` performs exactly the command the table word stands for (log 14). -/
def Obligations.FetchWordRunsTheTableCommand : Prop :=
  ∀ (s : State) (nbits w : Nat) (i : Instr), Unmarked s → decodeTableWord nbits w = some i →
    step (s.withFetchWord nbits w) =
      exec i { s with program := [.access (.write 0 4 (encode i))], pc := 1 }

/-- A word that is no command, written to CMD, changes STATUS.ERR and nothing else of the block (R126). -/
def Obligations.IllegalCommandChangesOnlyErr : Prop :=
  ∀ (s : State) (w : Word), Faces s (.access (.write 0 4 w)) → (∀ i, decode w ≠ .ok i) →
    step s = .next { s with pc := s.pc + 1, err := 5 }

/-- A step that performs an input moves the host's index by one and leaves the host's list alone; past the end of the list the
block is idle (R19; log 2). -/
def Obligations.IndexAdvancesByOnePerAccess : Prop :=
  (∀ (s t : State) (x : Input), Faces s x → step s = .next t → t.pc = s.pc + 1 ∧ t.program = s.program) ∧
  (∀ s : State, Unmarked s → s.program.length ≤ s.pc → step s = .next s)

/-- A marked run makes no step, and a mark once set is never cleared or changed (R20, R140; log 1). -/
def Obligations.MarksAreNeverCleared : Prop :=
  (∀ s : State, ¬ Unmarked s → ∀ t, step s ≠ .next t) ∧
  (∀ (s t : State), step s = .next t → Unmarked t) ∧
  (∀ (k : Nat) (s : State) (f : Fault), s.faultMark = some f → (markedRun k s).faultMark = some f) ∧
  (∀ (k : Nat) (s : State) (r : Refusal), s.faultMark = none → s.refusedMark = some r → markedRun k s = s)

/-! ### host accesses (20_memory R43 to R51) -/

/-- An access is refused exactly when the spec does not allow it: for a read, when its width, alignment or offset is not legal
(R43, R44, R45, R47); for a write, also when the host may not write there (R48). -/
def Obligations.RefusedExactlyWhenNotAllowed : Prop :=
  (∀ (s : State) (a : Offset) (n : Nat), Faces s (.access (.read a n)) →
    ((∃ r, step s = .refused r) ↔ ¬ LegalAt a.toNat n)) ∧
  (∀ (s : State) (a : Offset) (n : Nat) (v : Word), Faces s (.access (.write a n v)) →
    ((∃ r, step s = .refused r) ↔ ¬ (LegalAt a.toNat n ∧ HostWritable a.toNat)))

/-- A legal read changes no state of the block, and a second read of the same offset returns the same value (R49). -/
def Obligations.ReadChangesNoState : Prop :=
  (∀ (s t : State) (a : Offset) (n : Nat), Faces s (.access (.read a n)) → step s = .next t →
    ∃ v, t = { s with pc := s.pc + 1, results := s.results ++ [v] }) ∧
  (∀ (s t : State) (a : Offset) (n : Nat), Faces s (.access (.read a n)) → step s = .next t →
    Faces t (.access (.read a n)) →
    ∃ v u, t.results = s.results ++ [v] ∧ step t = .next u ∧ u.results = s.results ++ [v, v])

/-- The value each of the thirteen registers reads as (10_state sections 3 to 7): STATUS from ERR, HDR_VALID and OUT_LEN = 23,
TS_CTRL from TS_EXPLICIT, every other register its element, zero-extended. -/
def Obligations.RegisterReadValues : Prop :=
  ∀ (s : State) (k : Nat) (v : Word),
    [0x00000000#32,
     BitVec.ofNat 32 (s.err.toNat + 256 * (if s.hdrValid then 1 else 0) + 512 * (if s.outLen = 23 then 1 else 0)),
     BitVec.ofNat 32 s.inLen, BitVec.ofNat 32 s.reqLen, s.tsVal, (if s.tsExplicit then 1 else 0),
     s.csumAcc.setWidth 32, BitVec.ofNat 32 s.outLen, s.hdrPlen.setWidth 32, s.hdrType.setWidth 32,
     s.hdrRidx.setWidth 32, s.hdrQidx.setWidth 32, s.hdrSerial][k]? = some v →
    Faces s (.access (.read (BitVec.ofNat 13 (4 * k)) 4)) →
    step s = .next { s with pc := s.pc + 1, results := s.results ++ [v] }

/-- The effects of the writes that are no command: the clamped lengths, TS_VAL whole, bit 0 of TS_CTRL; nothing else changes
(R26, R35, R36, R37, R50). -/
def Obligations.RegisterWriteEffects : Prop :=
  ∀ (s : State) (v : Word),
    (Faces s (.access (.write 0x0008 4 v)) →
      step s = .next { s with pc := s.pc + 1, inLen := min v.toNat Config.inCap }) ∧
    (Faces s (.access (.write 0x000C 4 v)) →
      step s = .next { s with pc := s.pc + 1, reqLen := min v.toNat Config.reqCap }) ∧
    (Faces s (.access (.write 0x0010 4 v)) → step s = .next { s with pc := s.pc + 1, tsVal := v }) ∧
    (Faces s (.access (.write 0x0014 4 v)) →
      step s = .next { s with pc := s.pc + 1, tsExplicit := decide (v.toNat % 2 = 1) })

/-- A read of a window whose bytes are written completes: one byte in bits 7 to 0, or four bytes with the lowest index in the
lowest bits (R46). That a 1-byte read shows 0 in bits 31 to 8 of the bus value is the model's choice (log 10): R46 does not
say it. -/
def Obligations.WindowReadsAreLittleEndian : Prop :=
  ∀ (s : State) (e : Buf) (i : Nat) (a : Offset), a.toNat = windowBase e + i →
    (∀ b, i < windowSize e → content s e i = some b → Faces s (.access (.read a 1)) →
      step s = .next { s with pc := s.pc + 1, results := s.results ++ [BitVec.ofNat 32 b.toNat] }) ∧
    (∀ b0 b1 b2 b3 : Byte, i % 4 = 0 → i + 3 < windowSize e → content s e i = some b0 →
      content s e (i + 1) = some b1 → content s e (i + 2) = some b2 → content s e (i + 3) = some b3 →
      Faces s (.access (.read a 4)) →
      step s = .next { s with
        pc := s.pc + 1,
        results := s.results ++
          [BitVec.ofNat 32 (b0.toNat + 2 ^ 8 * b1.toNat + 2 ^ 16 * b2.toNat + 2 ^ 24 * b3.toNat)] })

/-- A legal read of an unwritten byte is `fault Uninit`; a 4-byte read faults exactly when one of its four bytes is
unwritten, and names one of those (R51). -/
def Obligations.ReadOfUnwrittenByteFaults : Prop :=
  (∀ (s : State) (e : Buf) (i : Nat) (a : Offset), a.toNat = windowBase e + i → i < windowSize e →
    Faces s (.access (.read a 1)) → content s e i = none → step s = .fault (.uninit e i)) ∧
  (∀ (s : State) (e : Buf) (i : Nat) (a : Offset), a.toNat = windowBase e + i → i % 4 = 0 → i + 3 < windowSize e →
    Faces s (.access (.read a 4)) → (∃ k < 4, content s e (i + k) = none) →
    ∃ k < 4, content s e (i + k) = none ∧ step s = .fault (.uninit e (i + k)))

/-- A write to a window the host can write completes: it stores the byte, or the four bytes with the lowest bits at the lowest
index; every other byte and every other element keeps its value (R46, R50). That a 1-byte write ignores bits 31 to 8 of the
bus value, whatever they are, is the model's choice (log 10): R46 does not say it. -/
def Obligations.WindowWritesStoreTheirBytes : Prop :=
  ∀ (s : State) (v : Word) (i : Nat) (a : Offset),
    (a.toNat = 0x1000 + i → i < Config.inCap → Faces s (.access (.write a 1 v)) →
      ∃ m, step s = .next { s with pc := s.pc + 1, inBuf := m } ∧ m.read i = some (BitVec.ofNat 8 v.toNat) ∧
        ∀ j, j ≠ i → m.read j = s.inBuf.read j) ∧
    (a.toNat = 0x0100 + i → i < Config.reqCap → Faces s (.access (.write a 1 v)) →
      ∃ m, step s = .next { s with pc := s.pc + 1, reqBuf := m } ∧ m.read i = some (BitVec.ofNat 8 v.toNat) ∧
        ∀ j, j ≠ i → m.read j = s.reqBuf.read j) ∧
    (a.toNat = 0x1000 + i → i % 4 = 0 → i + 3 < Config.inCap → Faces s (.access (.write a 4 v)) →
      ∃ m, step s = .next { s with pc := s.pc + 1, inBuf := m } ∧
        (∀ k < 4, m.read (i + k) = some (BitVec.ofNat 8 (v.toNat / 256 ^ k))) ∧
        ∀ j, (j < i ∨ i + 3 < j) → m.read j = s.inBuf.read j) ∧
    (a.toNat = 0x0100 + i → i % 4 = 0 → i + 3 < Config.reqCap → Faces s (.access (.write a 4 v)) →
      ∃ m, step s = .next { s with pc := s.pc + 1, reqBuf := m } ∧
        (∀ k < 4, m.read (i + k) = some (BitVec.ofNat 8 (v.toNat / 256 ^ k))) ∧
        ∀ j, (j < i ∨ i + 3 < j) → m.read j = s.reqBuf.read j)

/-- Memories in canonical form that read alike are the same data. The list form of a memory and its canonical form are the
model's choice (log 6); no rule of the spec says this. -/
def Obligations.CanonicalMemoriesReadingAlikeAreEqual : Prop :=
  ∀ m m' : Memory, m.wf → m'.wf → (∀ i, m.read i = m'.read i) → m = m'

/-! ### PARSE_HDR (40_header_parser) -/

/-- With IN_LEN ≥ 11 and the nine field bytes written, whatever their values, PARSE_HDR completes with the five fields from
their fixed offsets, little-endian (R83, R84). -/
def Obligations.ParseHdrReadsItsFieldsAtFixedOffsets : Prop :=
  ∀ (s : State) (b1 b2 b4 b5 b6 b7 b8 b9 b10 : Byte), 11 ≤ s.inLen →
    s.inBuf.read 1 = some b1 → s.inBuf.read 2 = some b2 → s.inBuf.read 4 = some b4 → s.inBuf.read 5 = some b5 →
    s.inBuf.read 6 = some b6 → s.inBuf.read 7 = some b7 → s.inBuf.read 8 = some b8 → s.inBuf.read 9 = some b9 →
    s.inBuf.read 10 = some b10 →
    exec .parseHdr s = .next { s with
      hdrPlen := BitVec.ofNat 16 (b1.toNat + 2 ^ 8 * b2.toNat), hdrType := b4, hdrRidx := b5, hdrQidx := b6,
      hdrSerial := BitVec.ofNat 32 (b7.toNat + 2 ^ 8 * b8.toNat + 2 ^ 16 * b9.toNat + 2 ^ 24 * b10.toNat),
      hdrValid := true, err := 0 }

/-- PARSE_HDR raises FORMAT_ERROR exactly when IN_LEN < 11 (R82). It then clears the five header registers and HDR_VALID and
sets no field from the buffer (R85). -/
def Obligations.ParseHdrFormatErrorClearsTheHeader : Prop :=
  (∀ s : State, s.inLen < 11 →
    exec .parseHdr s = .next { s with
      hdrPlen := 0, hdrType := 0, hdrRidx := 0, hdrQidx := 0, hdrSerial := 0, hdrValid := false, err := 1 }) ∧
  (∀ s t : State, exec .parseHdr s = .next t → (t.err = 1 ↔ s.inLen < 11))

/-- PARSE_HDR changes nothing but STATUS.ERR, the five header registers and HDR_VALID (R86): no other register, no byte of
any buffer. -/
def Obligations.ParseHdrFrame : Prop :=
  ∀ s t : State, exec .parseHdr s = .next t →
    t = { s with
      hdrPlen := t.hdrPlen, hdrType := t.hdrType, hdrRidx := t.hdrRidx, hdrQidx := t.hdrQidx,
      hdrSerial := t.hdrSerial, hdrValid := t.hdrValid, err := t.err } ∧
    ∀ e i, content t e i = content s e i

/-- The bytes [0] and [3] and the bytes from 11 on, written or not, never change a result of PARSE_HDR (R67, R68). -/
def Obligations.ParseHdrIgnoresReservedAndLaterBytes : Prop :=
  ∀ (s : State) (m : Memory), (∀ k ∈ [1, 2, 4, 5, 6, 7, 8, 9, 10], m.read k = s.inBuf.read k) →
    match exec .parseHdr s with
    | .next t => exec .parseHdr { s with inBuf := m } = .next { t with inBuf := m }
    | .fault f => exec .parseHdr { s with inBuf := m } = .fault f
    | .refused _ => False

/-- PARSE_HDR faults exactly when IN_LEN ≥ 11 and one of its nine field bytes is unwritten, and names such a byte; it does not
read [0] or [3] (R88). -/
def Obligations.ParseHdrFaultsOnUnwrittenFieldBytes : Prop :=
  (∀ s : State, (∃ f, exec .parseHdr s = .fault f) ↔
    11 ≤ s.inLen ∧ ∃ k ∈ [1, 2, 4, 5, 6, 7, 8, 9, 10], s.inBuf.read k = none) ∧
  (∀ (s : State) (f : Fault), exec .parseHdr s = .fault f →
    ∃ k ∈ [1, 2, 4, 5, 6, 7, 8, 9, 10], s.inBuf.read k = none ∧ f = .uninit .inBuf k)

/-- PARSE_HDR on unchanged inputs gives the same state again (40_header_parser section 1, corner cases). -/
def Obligations.ParseHdrTwiceIsParseHdr : Prop :=
  ∀ s t : State, exec .parseHdr s = .next t → exec .parseHdr t = .next t

/-! ### the checksum commands (41_checksum) -/

/-- CSUM_CLR is the word 0x00000002 alone, any other word with its OP being illegal, and it always completes with CSUM_ACC = 0
and ERR = 0 (R97). -/
def Obligations.CsumClrClears : Prop :=
  (∀ w : Word, decode w = .ok .csumClr ↔ w = 0x00000002) ∧
  (∀ (w : Word) (s : State), w.extractLsb' 0 8 = 0x02#8 → w ≠ 0x00000002 →
    runCommand w s = .next { s with err := 5 }) ∧
  ∀ s : State, exec .csumClr s = .next { s with csumAcc := 0, err := 0 }

/-- CSUM_ADD is the words 0x00000003 with any IMM8, a word with its OP and RSV ≠ 0 being illegal, and it always completes with
CSUM_ACC the sum mod 256 and ERR = 0; the carry is discarded (R98, R101). -/
def Obligations.CsumAddAddsItsImmediate : Prop :=
  (∀ (w : Word) (imm : Byte), decode w = .ok (.csumAdd imm) ↔ w.toNat = 3 + 256 * imm.toNat) ∧
  (∀ (w : Word) (s : State), w.extractLsb' 0 8 = 0x03#8 → w.extractLsb' 16 16 ≠ 0#16 →
    runCommand w s = .next { s with err := 5 }) ∧
  ∀ (imm : Byte) (s : State),
    exec (.csumAdd imm) s = .next { s with csumAcc := BitVec.ofNat 8 (s.csumAcc.toNat + imm.toNat), err := 0 }

/-- CSUM_IN, with IN_BUF[0:IN_LEN] written, completes with CSUM_ACC plus the sum of those bytes mod 256, and ERR = 0; no
minimum length is checked. Where one of those bytes is unwritten it is `fault Uninit` (R99; which byte is log 7). -/
def Obligations.CsumInAddsTheBuffer : Prop :=
  (∀ w : Word, decode w = .ok .csumIn ↔ w = 0x00000004) ∧
  (∀ (s : State) (bs : List Byte), bs.length = s.inLen → (∀ k < s.inLen, s.inBuf.read k = bs[k]?) →
    exec .csumIn s = .next { s with
      csumAcc := BitVec.ofNat 8 (s.csumAcc.toNat + (bs.map BitVec.toNat).sum), err := 0 }) ∧
  (∀ s : State, (∃ k < s.inLen, s.inBuf.read k = none) →
    ∃ k < s.inLen, s.inBuf.read k = none ∧ exec .csumIn s = .fault (.uninit .inBuf k))

/-- The three checksum commands change nothing but CSUM_ACC and STATUS.ERR (R102): no other register, no byte of any
buffer. -/
def Obligations.ChecksumCommandsFrame : Prop :=
  ∀ (i : Instr) (s t : State), (i = .csumClr ∨ i = .csumIn ∨ ∃ imm, i = .csumAdd imm) → exec i s = .next t →
    t = { s with csumAcc := t.csumAcc, err := t.err } ∧ ∀ e j, content t e j = content s e j

/-- The five laws of checksum8 (41_checksum section 1, derived there from its definition). -/
def Obligations.ChecksumLaws : Prop :=
  checksum8 [] = 0 ∧
  (∀ bs : List Byte, (checksum8 bs).toNat = (bs.map BitVec.toNat).sum % 256) ∧
  (∀ as bs : List Byte, as.Perm bs → checksum8 as = checksum8 bs) ∧
  (∀ as bs : List Byte,
    (checksum8 (as ++ bs)).toNat = ((checksum8 as).toNat + (bs.map BitVec.toNat).sum) % 256) ∧
  (∀ as bs : List Byte, checksum8 (as ++ bs) = checksum8 ([checksum8 as] ++ bs))

/-- The definition of checksum8: start at 0, add each byte mod 256 (R94); the final mask is the identity (R95). -/
def Obligations.ChecksumIsTheMaskedRunningSum : Prop :=
  (∀ bs : List Byte,
    (checksum8 bs).toNat = bs.foldl (fun acc b => (acc + b.toNat) % 256) 0 % 256) ∧
  (∀ bs : List Byte,
    bs.foldl (fun acc b => (acc + b.toNat) % 256) 0 % 256 = bs.foldl (fun acc b => (acc + b.toNat) % 256) 0)

/-- CSUM_CLR then CSUM_IN leaves checksum8 of IN_BUF[0:IN_LEN]; CSUM_CLR then CSUM_ADD of each byte in turn leaves the same
(41_checksum section 2, derived there). -/
def Obligations.ChecksumCommandsCompose : Prop :=
  ∀ (s : State) (bs : List Byte), bs.length = s.inLen → (∀ k < s.inLen, s.inBuf.read k = bs[k]?) →
    execAll [.csumClr, .csumIn] s = .next { s with csumAcc := checksum8 bs, err := 0 } ∧
    execAll (.csumClr :: bs.map .csumAdd) s = .next { s with csumAcc := checksum8 bs, err := 0 }

/-! ### BUILD_RSP (42_response_builder) -/

/-- With a header, a payload whose first byte is written, and HDR_TYPE ≥ 0x30, BUILD_RSP completes with the 23-byte frame:
marker, length 10, the type less 0x30, the request index twice, the serial number, the echoed byte, 0x01, the
timestamp, the four constants, the checksum of bytes 1 to 20, the terminator. The timestamp is TS_VAL, or the time
input, sampled once (R107, R109, R110, R111, R112, R113, R117). -/
def Obligations.BuildRspBuildsTheFrame : Prop :=
  ∀ (s : State) (echo : Byte) (ts : Word), s.hdrValid = true → 1 ≤ s.reqLen → 0x30 ≤ s.hdrType.toNat →
    s.reqBuf.read 0 = some echo → ts = (if s.tsExplicit then s.tsVal else Config.now s.nowDraws) →
    ∃ out : Vector Byte 23,
      exec .buildRsp s = .next { s with
        outBuf := out, outLen := 23, err := 0, nowDraws := s.nowDraws + (if s.tsExplicit then 0 else 1) } ∧
      out.toList =
        [0xA5, 0x0A, 0x00, 0x00, BitVec.ofNat 8 (s.hdrType.toNat - 0x30), s.hdrQidx, s.hdrQidx,
         s.hdrSerial.extractLsb' 0 8, s.hdrSerial.extractLsb' 8 8, s.hdrSerial.extractLsb' 16 8,
         s.hdrSerial.extractLsb' 24 8, echo, 0x01, ts.extractLsb' 0 8, ts.extractLsb' 8 8, ts.extractLsb' 16 8,
         ts.extractLsb' 24 8, 0xAA, 0xAA, 0x00, 0x00, out[21], 0x15] ∧
      out[21].toNat = (((out.toList.drop 1).take 20).map BitVec.toNat).sum % 256

/-- The error checks in their order, the first that applies being raised (R114); the failing command writes 0x00 to all of
OUT_BUF and sets OUT_LEN = 0, and samples no time (R115). -/
def Obligations.BuildRspErrorsInOrder : Prop :=
  ∀ s : State,
    (s.hdrValid = false →
      exec .buildRsp s = .next { s with outBuf := Vector.replicate 23 0, outLen := 0, err := 3 }) ∧
    (s.hdrValid = true → s.reqLen = 0 →
      exec .buildRsp s = .next { s with outBuf := Vector.replicate 23 0, outLen := 0, err := 2 }) ∧
    (s.hdrValid = true → 1 ≤ s.reqLen → s.hdrType.toNat < 0x30 →
      exec .buildRsp s = .next { s with outBuf := Vector.replicate 23 0, outLen := 0, err := 4 })

/-- The response type is exactly HDR_TYPE − 0x30 where that is not negative, and lies in 0x00 to 0xCF; where it would be
negative, with a header and a payload, the error is RESP_TYPE_RANGE and nothing wraps (R108). -/
def Obligations.ResponseTypeIsExact : Prop :=
  ∀ s t : State, exec .buildRsp s = .next t → s.hdrValid = true → 1 ≤ s.reqLen →
    (0x30 ≤ s.hdrType.toNat → t.err = 0 ∧ t.outBuf[4].toNat + 0x30 = s.hdrType.toNat ∧ t.outBuf[4].toNat ≤ 0xCF) ∧
    (s.hdrType.toNat < 0x30 → t.err = 4 ∧ t.outLen = 0)

/-- The time input is sampled once by a BUILD_RSP that passes its checks with TS_EXPLICIT = 0, and never otherwise: the frame
then holds that sample, and a failing BUILD_RSP samples none (R113). -/
def Obligations.TimeIsSampledOnceAfterTheChecks : Prop :=
  ∀ s t : State, exec .buildRsp s = .next t →
    (t.err = 0 → s.tsExplicit = false → t.nowDraws = s.nowDraws + 1 ∧
      (slice t.outBuf.toList 13 17) = encLe32 (Config.now s.nowDraws)) ∧
    (t.err = 0 → s.tsExplicit = true → t.nowDraws = s.nowDraws ∧ (slice t.outBuf.toList 13 17) = encLe32 s.tsVal) ∧
    (t.err ≠ 0 → t.nowDraws = s.nowDraws)

/-- BUILD_RSP changes nothing but OUT_BUF, OUT_LEN and STATUS.ERR, CSUM_ACC among what it keeps (R116); the count of time
samples is the model's own field (log 4). -/
def Obligations.BuildRspFrame : Prop :=
  ∀ s t : State, exec .buildRsp s = .next t →
    t = { s with outBuf := t.outBuf, outLen := t.outLen, err := t.err, nowDraws := t.nowDraws } ∧
    (∀ i, t.inBuf.read i = s.inBuf.read i) ∧ (∀ i, t.reqBuf.read i = s.reqBuf.read i)

/-- BUILD_RSP reads neither HDR_PLEN, HDR_RIDX, IN_BUF, IN_LEN nor CSUM_ACC, nor what OUT_BUF, OUT_LEN and STATUS.ERR held
(R106), nor any byte of REQ_BUF past the first, written or not (R118): with other values there it does the same. -/
def Obligations.BuildRspReadsOnlyItsInputs : Prop :=
  ∀ (s : State) (plen : Half) (ridx csum : Byte) (m m' : Memory) (n l : Nat) (out : Vector Byte 23) (e : BitVec 4),
    m'.read 0 = s.reqBuf.read 0 →
    match exec .buildRsp s with
    | .next t =>
      exec .buildRsp { s with
        hdrPlen := plen, hdrRidx := ridx, csumAcc := csum, inBuf := m, inLen := n, reqBuf := m',
        outBuf := out, outLen := l, err := e } =
      .next { t with hdrPlen := plen, hdrRidx := ridx, csumAcc := csum, inBuf := m, inLen := n, reqBuf := m' }
    | .fault f =>
      exec .buildRsp { s with
        hdrPlen := plen, hdrRidx := ridx, csumAcc := csum, inBuf := m, inLen := n, reqBuf := m',
        outBuf := out, outLen := l, err := e } = .fault f
    | .refused _ => False

/-- BUILD_RSP faults exactly when its three checks pass and REQ_BUF[0] is unwritten, and names that byte (42_response_builder
section 1; 60_exceptions section 2). -/
def Obligations.BuildRspFaultsOnUnwrittenEcho : Prop :=
  ∀ (s : State) (f : Fault), exec .buildRsp s = .fault f ↔
    s.hdrValid = true ∧ 1 ≤ s.reqLen ∧ 0x30 ≤ s.hdrType.toNat ∧ s.reqBuf.read 0 = none ∧ f = .uninit .reqBuf 0

/-- After any BUILD_RSP, OUT_LEN is 23 or 0; when it is 23, the frame's fixed bytes, the echoed byte and the checksum are as
stated (42_response_builder section 1, derived there). -/
def Obligations.AfterBuildRspOutBufIsAFrame : Prop :=
  ∀ s t : State, exec .buildRsp s = .next t → (t.outLen = 23 ∨ t.outLen = 0) ∧
    (t.outLen = 23 → t.outBuf[0] = 0xA5 ∧ t.outBuf[22] = 0x15 ∧ s.reqBuf.read 0 = some t.outBuf[11] ∧
      t.outBuf[21] = checksum8 (slice t.outBuf.toList 1 21))

/-- With TS_EXPLICIT = 1 and unchanged inputs, a second BUILD_RSP gives the same state (42_response_builder section 1, corner
cases). -/
def Obligations.BuildRspTwiceGivesTheSameFrame : Prop :=
  ∀ s t : State, s.tsExplicit = true → exec .buildRsp s = .next t → exec .buildRsp t = .next t

/-! ### errors (60_exceptions) -/

/-- Which code a write to CMD leaves, and exactly when: the table of R121 with its causes. Codes 6 to 15 are never produced. -/
def Obligations.ErrorCodesAndTheirCauses : Prop :=
  ∀ (w : Word) (s t : State), runCommand w s = .next t →
    (t.err = 1 ↔ decode w = .ok .parseHdr ∧ s.inLen < 11) ∧
    (t.err = 2 ↔ decode w = .ok .buildRsp ∧ s.hdrValid = true ∧ s.reqLen = 0) ∧
    (t.err = 3 ↔ decode w = .ok .buildRsp ∧ s.hdrValid = false) ∧
    (t.err = 4 ↔ decode w = .ok .buildRsp ∧ s.hdrValid = true ∧ 1 ≤ s.reqLen ∧ s.hdrType.toNat < 0x30) ∧
    (t.err = 5 ↔ ∀ i, decode w ≠ .ok i) ∧
    t.err.toNat ≤ 5

/-- Every command writes STATUS.ERR, whatever it held: the old value has no effect on any command's outcome, and a command
that raises no error writes 0 (R127). -/
def Obligations.ErrReportsTheMostRecentCommandOnly : Prop :=
  (∀ (w : Word) (s : State) (e : BitVec 4), runCommand w { s with err := e } = runCommand w s) ∧
  (∀ (i : Instr) (s t : State), exec i s = .next t → ¬ (i = .parseHdr ∧ s.inLen < 11) →
    ¬ (i = .buildRsp ∧ (s.hdrValid = false ∨ s.reqLen = 0 ∨ s.hdrType.toNat < 0x30)) → t.err = 0)

/-- A command faults only when every hardware error check of it has passed, and no command is refused (60_exceptions
section 2). -/
def Obligations.FaultsComeAfterTheErrorChecks : Prop :=
  ∀ (i : Instr) (s : State),
    (∀ f, exec i s = .fault f →
      (i = .parseHdr ∧ 11 ≤ s.inLen) ∨ i = .csumIn ∨
      (i = .buildRsp ∧ s.hdrValid = true ∧ 1 ≤ s.reqLen ∧ 0x30 ≤ s.hdrType.toNat)) ∧
    ∀ r, exec i s ≠ .refused r

/-! ### the machine as a whole -/

/-- HDR_VALID is set by a successful PARSE_HDR, cleared with the five header registers by a failing one, and changed by no
other command and no host access; it is 0 after reset (R32). -/
def Obligations.OnlyParseHdrWritesTheHeader : Prop :=
  (∀ s t : State, exec .parseHdr s = .next t → 11 ≤ s.inLen → t.hdrValid = true) ∧
  (∀ s t : State, exec .parseHdr s = .next t → s.inLen < 11 →
    t.hdrValid = false ∧ t.hdrPlen = 0 ∧ t.hdrType = 0 ∧ t.hdrRidx = 0 ∧ t.hdrQidx = 0 ∧ t.hdrSerial = 0) ∧
  (∀ s t : State, step s = .next t → ¬ Faces s (.access (.write 0 4 0x00000001)) → ¬ Faces s .reset →
    t.hdrValid = s.hdrValid ∧ t.hdrPlen = s.hdrPlen ∧ t.hdrType = s.hdrType ∧ t.hdrRidx = s.hdrRidx ∧
      t.hdrQidx = s.hdrQidx ∧ t.hdrSerial = s.hdrSerial) ∧
  State.reset.hdrValid = false

/-- How long results last: OUT_BUF and OUT_LEN until the next BUILD_RSP, CSUM_ACC until the next checksum command, STATUS.ERR
until the next write to CMD, or reset (70_reset_and_hazards section 3, derived there). -/
def Obligations.ResultsLastUntilTheirNextCommand : Prop :=
  ∀ s t : State, step s = .next t → ¬ Faces s .reset →
    (¬ Faces s (.access (.write 0 4 0x00000005)) → t.outBuf = s.outBuf ∧ t.outLen = s.outLen) ∧
    ((∀ i imm, i = .csumClr ∨ i = .csumIn ∨ i = .csumAdd imm → ¬ Faces s (.access (.write 0 4 (encode i)))) →
      t.csumAcc = s.csumAcc) ∧
    ((∀ w, ¬ Faces s (.access (.write 0 4 w))) → t.err = s.err)

/-- No command writes the host's inputs: IN_BUF and REQ_BUF (10_state sections 4 and 6), and IN_LEN, REQ_LEN, TS_VAL and
TS_EXPLICIT by what PARSE_HDR (40_header_parser section 1), the checksum commands (41_checksum section 2), BUILD_RSP
(42_response_builder section 1) and an illegal word (60_exceptions section 1) leave unchanged. -/
def Obligations.NoCommandWritesTheHostsInputs : Prop :=
  ∀ (w : Word) (s t : State), runCommand w s = .next t →
    (∀ i, t.inBuf.read i = s.inBuf.read i) ∧ t.inLen = s.inLen ∧ (∀ i, t.reqBuf.read i = s.reqBuf.read i) ∧
      t.reqLen = s.reqLen ∧ t.tsVal = s.tsVal ∧ t.tsExplicit = s.tsExplicit

/-- A written buffer byte stays written: only reset makes a byte unwritten again (10_state sections 4 and 6; 70_reset section
1). -/
def Obligations.WrittenBytesStayWrittenUntilReset : Prop :=
  ∀ (s t : State) (e : Buf) (i : Nat), step s = .next t → ¬ Faces s .reset → content s e i ≠ none →
    content t e i ≠ none

/-- The reset values of the elements, in the state after reset and after the reset input (70_reset_and_hazards section 1). The
third clause also says what the reset input keeps: the host's list, its results and the count of time samples stay, and the
host's index moves on; that is the model's choice (log 3). -/
def Obligations.ResetGivesEveryElementItsValue : Prop :=
  (∀ i, State.reset.inBuf.read i = none ∧ State.reset.reqBuf.read i = none) ∧
  (State.reset.inLen = 0 ∧ State.reset.hdrPlen = 0 ∧ State.reset.hdrType = 0 ∧ State.reset.hdrRidx = 0 ∧
    State.reset.hdrQidx = 0 ∧ State.reset.hdrSerial = 0 ∧ State.reset.hdrValid = false ∧ State.reset.csumAcc = 0 ∧
    State.reset.reqLen = 0 ∧ State.reset.tsVal = 0 ∧ State.reset.tsExplicit = false ∧
    State.reset.outBuf = Vector.replicate 23 0 ∧ State.reset.outLen = 0 ∧ State.reset.err = 0 ∧
    State.reset.statusWord = 0 ∧ State.reset.readReg .cmd = 0 ∧ State.reset.faultMark = none) ∧
  (∀ s : State, Faces s .reset → step s = .next { State.reset with
    program := s.program, pc := s.pc + 1, results := s.results, nowDraws := s.nowDraws })

/-- The invariant holds after reset. The canonical form of the memories (log 6), and the host's list and index with the empty
list and the 0 they start from (log 2), are the model's choice. -/
def Obligations.ResetMeetsTheInvariant : Prop := Inv State.reset

/-- Every step, from every state that meets the invariant, gives a state that meets it: canonical memories inside their
capacities, legal lengths, OUT_BUF zero or a frame, no header data without HDR_VALID, a produced error code, the
host's index inside its list. The canonical form and the host's list are the model's choice (log 6, log 2). -/
def Obligations.StepKeepsTheInvariant : Prop := ∀ s t : State, Inv s → step s = .next t → Inv t

/-! ### program syntax (30_encoding section 5) -/

/-- A command assembles to one 32-bit write to CMD of its word, and the pseudo-instructions to the accesses they stand for, in
order (R76; the first clause is 30_encoding section 5's mnemonics). -/
def Obligations.StatementsExpandToTheirAccesses : Prop :=
  (∀ i, expand (.command i) = some [.access (.write 0x0000 4 (encode i))]) ∧
  (∀ bs : List Byte, bs.length ≤ 4096 →
    expand (.loadIn bs) = some
      (bs.zipIdx.map (fun p => .access (.write (BitVec.ofNat 13 (0x1000 + p.2)) 1 (p.1.setWidth 32))) ++
        [.access (.write 0x0008 4 (BitVec.ofNat 32 bs.length))])) ∧
  (∀ bs : List Byte, bs.length ≤ 256 →
    expand (.loadReq bs) = some
      (bs.zipIdx.map (fun p => .access (.write (BitVec.ofNat 13 (0x0100 + p.2)) 1 (p.1.setWidth 32))) ++
        [.access (.write 0x000C 4 (BitVec.ofNat 32 bs.length))])) ∧
  (∀ t, expand (.setTs t) = some [.access (.write 0x0010 4 t), .access (.write 0x0014 4 1)]) ∧
  expand .useClock = some [.access (.write 0x0014 4 0)] ∧
  (∀ bs : List Byte, expand (.csumBytes bs) =
    some (bs.map fun b => .access (.write 0x0000 4 (encode (.csumAdd b))))) ∧
  expand .checksumOfIn = some [.access (.write 0x0000 4 0x00000002), .access (.write 0x0000 4 0x00000004)]

/-- LOAD_IN loads its bytes: performed from any state, with no more bytes than IN_CAP, its accesses leave IN_BUF[k] the k-th
byte and IN_LEN their number, and nothing else changed (30_encoding section 5, 20_memory section 3). -/
def Obligations.LoadInLoadsItsBytes : Prop :=
  ∀ (s : State) (bs : List Byte), bs.length ≤ Config.inCap →
    ∃ xs m, expand (.loadIn bs) = some xs ∧
      performAll xs s = .next { s with inBuf := m, inLen := bs.length } ∧
      (∀ k < bs.length, m.read k = bs[k]?) ∧ ∀ k, bs.length ≤ k → m.read k = s.inBuf.read k
end

