-- ==== Sys2Proof/Laws/State.lean ====
section
/-! SUPPORT. One lemma per field per update of the state, so that no proof unfolds a record update. -/

namespace Sys2Proof.Machine

/-! ### setErr -/

@[simp] theorem State.setErr_inBuf (s : State) (c : BitVec 4) : (s.setErr c).inBuf = s.inBuf := rfl
@[simp] theorem State.setErr_inLen (s : State) (c : BitVec 4) : (s.setErr c).inLen = s.inLen := rfl
@[simp] theorem State.setErr_hdrPlen (s : State) (c : BitVec 4) : (s.setErr c).hdrPlen = s.hdrPlen := rfl
@[simp] theorem State.setErr_hdrType (s : State) (c : BitVec 4) : (s.setErr c).hdrType = s.hdrType := rfl
@[simp] theorem State.setErr_hdrRidx (s : State) (c : BitVec 4) : (s.setErr c).hdrRidx = s.hdrRidx := rfl
@[simp] theorem State.setErr_hdrQidx (s : State) (c : BitVec 4) : (s.setErr c).hdrQidx = s.hdrQidx := rfl
@[simp] theorem State.setErr_hdrSerial (s : State) (c : BitVec 4) : (s.setErr c).hdrSerial = s.hdrSerial := rfl
@[simp] theorem State.setErr_hdrValid (s : State) (c : BitVec 4) : (s.setErr c).hdrValid = s.hdrValid := rfl
@[simp] theorem State.setErr_csumAcc (s : State) (c : BitVec 4) : (s.setErr c).csumAcc = s.csumAcc := rfl
@[simp] theorem State.setErr_reqBuf (s : State) (c : BitVec 4) : (s.setErr c).reqBuf = s.reqBuf := rfl
@[simp] theorem State.setErr_reqLen (s : State) (c : BitVec 4) : (s.setErr c).reqLen = s.reqLen := rfl
@[simp] theorem State.setErr_tsVal (s : State) (c : BitVec 4) : (s.setErr c).tsVal = s.tsVal := rfl
@[simp] theorem State.setErr_tsExplicit (s : State) (c : BitVec 4) : (s.setErr c).tsExplicit = s.tsExplicit := rfl
@[simp] theorem State.setErr_outBuf (s : State) (c : BitVec 4) : (s.setErr c).outBuf = s.outBuf := rfl
@[simp] theorem State.setErr_outLen (s : State) (c : BitVec 4) : (s.setErr c).outLen = s.outLen := rfl
@[simp] theorem State.setErr_err (s : State) (c : BitVec 4) : (s.setErr c).err = c := rfl
@[simp] theorem State.setErr_faultMark (s : State) (c : BitVec 4) : (s.setErr c).faultMark = s.faultMark := rfl
@[simp] theorem State.setErr_refusedMark (s : State) (c : BitVec 4) : (s.setErr c).refusedMark = s.refusedMark := rfl
@[simp] theorem State.setErr_program (s : State) (c : BitVec 4) : (s.setErr c).program = s.program := rfl
@[simp] theorem State.setErr_pc (s : State) (c : BitVec 4) : (s.setErr c).pc = s.pc := rfl
@[simp] theorem State.setErr_results (s : State) (c : BitVec 4) : (s.setErr c).results = s.results := rfl
@[simp] theorem State.setErr_nowDraws (s : State) (c : BitVec 4) : (s.setErr c).nowDraws = s.nowDraws := rfl

/-! ### setHeader -/

@[simp] theorem State.setHeader_inBuf (s : State) (h : Header) (v : Bool) : (s.setHeader h v).inBuf = s.inBuf := rfl
@[simp] theorem State.setHeader_inLen (s : State) (h : Header) (v : Bool) : (s.setHeader h v).inLen = s.inLen := rfl
@[simp] theorem State.setHeader_hdrPlen (s : State) (h : Header) (v : Bool) : (s.setHeader h v).hdrPlen = h.plen := rfl
@[simp] theorem State.setHeader_hdrType (s : State) (h : Header) (v : Bool) : (s.setHeader h v).hdrType = h.type := rfl
@[simp] theorem State.setHeader_hdrRidx (s : State) (h : Header) (v : Bool) : (s.setHeader h v).hdrRidx = h.ridx := rfl
@[simp] theorem State.setHeader_hdrQidx (s : State) (h : Header) (v : Bool) : (s.setHeader h v).hdrQidx = h.qidx := rfl
@[simp] theorem State.setHeader_hdrSerial (s : State) (h : Header) (v : Bool) : (s.setHeader h v).hdrSerial = h.serial := rfl
@[simp] theorem State.setHeader_hdrValid (s : State) (h : Header) (v : Bool) : (s.setHeader h v).hdrValid = v := rfl
@[simp] theorem State.setHeader_csumAcc (s : State) (h : Header) (v : Bool) : (s.setHeader h v).csumAcc = s.csumAcc := rfl
@[simp] theorem State.setHeader_reqBuf (s : State) (h : Header) (v : Bool) : (s.setHeader h v).reqBuf = s.reqBuf := rfl
@[simp] theorem State.setHeader_reqLen (s : State) (h : Header) (v : Bool) : (s.setHeader h v).reqLen = s.reqLen := rfl
@[simp] theorem State.setHeader_tsVal (s : State) (h : Header) (v : Bool) : (s.setHeader h v).tsVal = s.tsVal := rfl
@[simp] theorem State.setHeader_tsExplicit (s : State) (h : Header) (v : Bool) : (s.setHeader h v).tsExplicit = s.tsExplicit := rfl
@[simp] theorem State.setHeader_outBuf (s : State) (h : Header) (v : Bool) : (s.setHeader h v).outBuf = s.outBuf := rfl
@[simp] theorem State.setHeader_outLen (s : State) (h : Header) (v : Bool) : (s.setHeader h v).outLen = s.outLen := rfl
@[simp] theorem State.setHeader_err (s : State) (h : Header) (v : Bool) : (s.setHeader h v).err = s.err := rfl
@[simp] theorem State.setHeader_faultMark (s : State) (h : Header) (v : Bool) : (s.setHeader h v).faultMark = s.faultMark := rfl
@[simp] theorem State.setHeader_refusedMark (s : State) (h : Header) (v : Bool) : (s.setHeader h v).refusedMark = s.refusedMark := rfl
@[simp] theorem State.setHeader_program (s : State) (h : Header) (v : Bool) : (s.setHeader h v).program = s.program := rfl
@[simp] theorem State.setHeader_pc (s : State) (h : Header) (v : Bool) : (s.setHeader h v).pc = s.pc := rfl
@[simp] theorem State.setHeader_results (s : State) (h : Header) (v : Bool) : (s.setHeader h v).results = s.results := rfl
@[simp] theorem State.setHeader_nowDraws (s : State) (h : Header) (v : Bool) : (s.setHeader h v).nowDraws = s.nowDraws := rfl

/-! ### setCsumAcc -/

@[simp] theorem State.setCsumAcc_inBuf (s : State) (v : Byte) : (s.setCsumAcc v).inBuf = s.inBuf := rfl
@[simp] theorem State.setCsumAcc_inLen (s : State) (v : Byte) : (s.setCsumAcc v).inLen = s.inLen := rfl
@[simp] theorem State.setCsumAcc_hdrPlen (s : State) (v : Byte) : (s.setCsumAcc v).hdrPlen = s.hdrPlen := rfl
@[simp] theorem State.setCsumAcc_hdrType (s : State) (v : Byte) : (s.setCsumAcc v).hdrType = s.hdrType := rfl
@[simp] theorem State.setCsumAcc_hdrRidx (s : State) (v : Byte) : (s.setCsumAcc v).hdrRidx = s.hdrRidx := rfl
@[simp] theorem State.setCsumAcc_hdrQidx (s : State) (v : Byte) : (s.setCsumAcc v).hdrQidx = s.hdrQidx := rfl
@[simp] theorem State.setCsumAcc_hdrSerial (s : State) (v : Byte) : (s.setCsumAcc v).hdrSerial = s.hdrSerial := rfl
@[simp] theorem State.setCsumAcc_hdrValid (s : State) (v : Byte) : (s.setCsumAcc v).hdrValid = s.hdrValid := rfl
@[simp] theorem State.setCsumAcc_csumAcc (s : State) (v : Byte) : (s.setCsumAcc v).csumAcc = v := rfl
@[simp] theorem State.setCsumAcc_reqBuf (s : State) (v : Byte) : (s.setCsumAcc v).reqBuf = s.reqBuf := rfl
@[simp] theorem State.setCsumAcc_reqLen (s : State) (v : Byte) : (s.setCsumAcc v).reqLen = s.reqLen := rfl
@[simp] theorem State.setCsumAcc_tsVal (s : State) (v : Byte) : (s.setCsumAcc v).tsVal = s.tsVal := rfl
@[simp] theorem State.setCsumAcc_tsExplicit (s : State) (v : Byte) : (s.setCsumAcc v).tsExplicit = s.tsExplicit := rfl
@[simp] theorem State.setCsumAcc_outBuf (s : State) (v : Byte) : (s.setCsumAcc v).outBuf = s.outBuf := rfl
@[simp] theorem State.setCsumAcc_outLen (s : State) (v : Byte) : (s.setCsumAcc v).outLen = s.outLen := rfl
@[simp] theorem State.setCsumAcc_err (s : State) (v : Byte) : (s.setCsumAcc v).err = s.err := rfl
@[simp] theorem State.setCsumAcc_faultMark (s : State) (v : Byte) : (s.setCsumAcc v).faultMark = s.faultMark := rfl
@[simp] theorem State.setCsumAcc_refusedMark (s : State) (v : Byte) : (s.setCsumAcc v).refusedMark = s.refusedMark := rfl
@[simp] theorem State.setCsumAcc_program (s : State) (v : Byte) : (s.setCsumAcc v).program = s.program := rfl
@[simp] theorem State.setCsumAcc_pc (s : State) (v : Byte) : (s.setCsumAcc v).pc = s.pc := rfl
@[simp] theorem State.setCsumAcc_results (s : State) (v : Byte) : (s.setCsumAcc v).results = s.results := rfl
@[simp] theorem State.setCsumAcc_nowDraws (s : State) (v : Byte) : (s.setCsumAcc v).nowDraws = s.nowDraws := rfl

/-! ### setOut -/

@[simp] theorem State.setOut_inBuf (s : State) (o : Vector Byte 23) (n : Nat) : (s.setOut o n).inBuf = s.inBuf := rfl
@[simp] theorem State.setOut_inLen (s : State) (o : Vector Byte 23) (n : Nat) : (s.setOut o n).inLen = s.inLen := rfl
@[simp] theorem State.setOut_hdrPlen (s : State) (o : Vector Byte 23) (n : Nat) : (s.setOut o n).hdrPlen = s.hdrPlen := rfl
@[simp] theorem State.setOut_hdrType (s : State) (o : Vector Byte 23) (n : Nat) : (s.setOut o n).hdrType = s.hdrType := rfl
@[simp] theorem State.setOut_hdrRidx (s : State) (o : Vector Byte 23) (n : Nat) : (s.setOut o n).hdrRidx = s.hdrRidx := rfl
@[simp] theorem State.setOut_hdrQidx (s : State) (o : Vector Byte 23) (n : Nat) : (s.setOut o n).hdrQidx = s.hdrQidx := rfl
@[simp] theorem State.setOut_hdrSerial (s : State) (o : Vector Byte 23) (n : Nat) : (s.setOut o n).hdrSerial = s.hdrSerial := rfl
@[simp] theorem State.setOut_hdrValid (s : State) (o : Vector Byte 23) (n : Nat) : (s.setOut o n).hdrValid = s.hdrValid := rfl
@[simp] theorem State.setOut_csumAcc (s : State) (o : Vector Byte 23) (n : Nat) : (s.setOut o n).csumAcc = s.csumAcc := rfl
@[simp] theorem State.setOut_reqBuf (s : State) (o : Vector Byte 23) (n : Nat) : (s.setOut o n).reqBuf = s.reqBuf := rfl
@[simp] theorem State.setOut_reqLen (s : State) (o : Vector Byte 23) (n : Nat) : (s.setOut o n).reqLen = s.reqLen := rfl
@[simp] theorem State.setOut_tsVal (s : State) (o : Vector Byte 23) (n : Nat) : (s.setOut o n).tsVal = s.tsVal := rfl
@[simp] theorem State.setOut_tsExplicit (s : State) (o : Vector Byte 23) (n : Nat) : (s.setOut o n).tsExplicit = s.tsExplicit := rfl
@[simp] theorem State.setOut_outBuf (s : State) (o : Vector Byte 23) (n : Nat) : (s.setOut o n).outBuf = o := rfl
@[simp] theorem State.setOut_outLen (s : State) (o : Vector Byte 23) (n : Nat) : (s.setOut o n).outLen = n := rfl
@[simp] theorem State.setOut_err (s : State) (o : Vector Byte 23) (n : Nat) : (s.setOut o n).err = s.err := rfl
@[simp] theorem State.setOut_faultMark (s : State) (o : Vector Byte 23) (n : Nat) : (s.setOut o n).faultMark = s.faultMark := rfl
@[simp] theorem State.setOut_refusedMark (s : State) (o : Vector Byte 23) (n : Nat) : (s.setOut o n).refusedMark = s.refusedMark := rfl
@[simp] theorem State.setOut_program (s : State) (o : Vector Byte 23) (n : Nat) : (s.setOut o n).program = s.program := rfl
@[simp] theorem State.setOut_pc (s : State) (o : Vector Byte 23) (n : Nat) : (s.setOut o n).pc = s.pc := rfl
@[simp] theorem State.setOut_results (s : State) (o : Vector Byte 23) (n : Nat) : (s.setOut o n).results = s.results := rfl
@[simp] theorem State.setOut_nowDraws (s : State) (o : Vector Byte 23) (n : Nat) : (s.setOut o n).nowDraws = s.nowDraws := rfl

/-! ### drawNow -/

@[simp] theorem State.drawNow_inBuf (s : State) : s.drawNow.inBuf = s.inBuf := rfl
@[simp] theorem State.drawNow_inLen (s : State) : s.drawNow.inLen = s.inLen := rfl
@[simp] theorem State.drawNow_hdrPlen (s : State) : s.drawNow.hdrPlen = s.hdrPlen := rfl
@[simp] theorem State.drawNow_hdrType (s : State) : s.drawNow.hdrType = s.hdrType := rfl
@[simp] theorem State.drawNow_hdrRidx (s : State) : s.drawNow.hdrRidx = s.hdrRidx := rfl
@[simp] theorem State.drawNow_hdrQidx (s : State) : s.drawNow.hdrQidx = s.hdrQidx := rfl
@[simp] theorem State.drawNow_hdrSerial (s : State) : s.drawNow.hdrSerial = s.hdrSerial := rfl
@[simp] theorem State.drawNow_hdrValid (s : State) : s.drawNow.hdrValid = s.hdrValid := rfl
@[simp] theorem State.drawNow_csumAcc (s : State) : s.drawNow.csumAcc = s.csumAcc := rfl
@[simp] theorem State.drawNow_reqBuf (s : State) : s.drawNow.reqBuf = s.reqBuf := rfl
@[simp] theorem State.drawNow_reqLen (s : State) : s.drawNow.reqLen = s.reqLen := rfl
@[simp] theorem State.drawNow_tsVal (s : State) : s.drawNow.tsVal = s.tsVal := rfl
@[simp] theorem State.drawNow_tsExplicit (s : State) : s.drawNow.tsExplicit = s.tsExplicit := rfl
@[simp] theorem State.drawNow_outBuf (s : State) : s.drawNow.outBuf = s.outBuf := rfl
@[simp] theorem State.drawNow_outLen (s : State) : s.drawNow.outLen = s.outLen := rfl
@[simp] theorem State.drawNow_err (s : State) : s.drawNow.err = s.err := rfl
@[simp] theorem State.drawNow_faultMark (s : State) : s.drawNow.faultMark = s.faultMark := rfl
@[simp] theorem State.drawNow_refusedMark (s : State) : s.drawNow.refusedMark = s.refusedMark := rfl
@[simp] theorem State.drawNow_program (s : State) : s.drawNow.program = s.program := rfl
@[simp] theorem State.drawNow_pc (s : State) : s.drawNow.pc = s.pc := rfl
@[simp] theorem State.drawNow_results (s : State) : s.drawNow.results = s.results := rfl
@[simp] theorem State.drawNow_nowDraws (s : State) : s.drawNow.nowDraws = s.nowDraws + 1 := rfl

/-! ### setInLen -/

@[simp] theorem State.setInLen_inBuf (s : State) (n : Nat) : (s.setInLen n).inBuf = s.inBuf := rfl
@[simp] theorem State.setInLen_inLen (s : State) (n : Nat) : (s.setInLen n).inLen = n := rfl
@[simp] theorem State.setInLen_hdrPlen (s : State) (n : Nat) : (s.setInLen n).hdrPlen = s.hdrPlen := rfl
@[simp] theorem State.setInLen_hdrType (s : State) (n : Nat) : (s.setInLen n).hdrType = s.hdrType := rfl
@[simp] theorem State.setInLen_hdrRidx (s : State) (n : Nat) : (s.setInLen n).hdrRidx = s.hdrRidx := rfl
@[simp] theorem State.setInLen_hdrQidx (s : State) (n : Nat) : (s.setInLen n).hdrQidx = s.hdrQidx := rfl
@[simp] theorem State.setInLen_hdrSerial (s : State) (n : Nat) : (s.setInLen n).hdrSerial = s.hdrSerial := rfl
@[simp] theorem State.setInLen_hdrValid (s : State) (n : Nat) : (s.setInLen n).hdrValid = s.hdrValid := rfl
@[simp] theorem State.setInLen_csumAcc (s : State) (n : Nat) : (s.setInLen n).csumAcc = s.csumAcc := rfl
@[simp] theorem State.setInLen_reqBuf (s : State) (n : Nat) : (s.setInLen n).reqBuf = s.reqBuf := rfl
@[simp] theorem State.setInLen_reqLen (s : State) (n : Nat) : (s.setInLen n).reqLen = s.reqLen := rfl
@[simp] theorem State.setInLen_tsVal (s : State) (n : Nat) : (s.setInLen n).tsVal = s.tsVal := rfl
@[simp] theorem State.setInLen_tsExplicit (s : State) (n : Nat) : (s.setInLen n).tsExplicit = s.tsExplicit := rfl
@[simp] theorem State.setInLen_outBuf (s : State) (n : Nat) : (s.setInLen n).outBuf = s.outBuf := rfl
@[simp] theorem State.setInLen_outLen (s : State) (n : Nat) : (s.setInLen n).outLen = s.outLen := rfl
@[simp] theorem State.setInLen_err (s : State) (n : Nat) : (s.setInLen n).err = s.err := rfl
@[simp] theorem State.setInLen_faultMark (s : State) (n : Nat) : (s.setInLen n).faultMark = s.faultMark := rfl
@[simp] theorem State.setInLen_refusedMark (s : State) (n : Nat) : (s.setInLen n).refusedMark = s.refusedMark := rfl
@[simp] theorem State.setInLen_program (s : State) (n : Nat) : (s.setInLen n).program = s.program := rfl
@[simp] theorem State.setInLen_pc (s : State) (n : Nat) : (s.setInLen n).pc = s.pc := rfl
@[simp] theorem State.setInLen_results (s : State) (n : Nat) : (s.setInLen n).results = s.results := rfl
@[simp] theorem State.setInLen_nowDraws (s : State) (n : Nat) : (s.setInLen n).nowDraws = s.nowDraws := rfl

/-! ### setReqLen -/

@[simp] theorem State.setReqLen_inBuf (s : State) (n : Nat) : (s.setReqLen n).inBuf = s.inBuf := rfl
@[simp] theorem State.setReqLen_inLen (s : State) (n : Nat) : (s.setReqLen n).inLen = s.inLen := rfl
@[simp] theorem State.setReqLen_hdrPlen (s : State) (n : Nat) : (s.setReqLen n).hdrPlen = s.hdrPlen := rfl
@[simp] theorem State.setReqLen_hdrType (s : State) (n : Nat) : (s.setReqLen n).hdrType = s.hdrType := rfl
@[simp] theorem State.setReqLen_hdrRidx (s : State) (n : Nat) : (s.setReqLen n).hdrRidx = s.hdrRidx := rfl
@[simp] theorem State.setReqLen_hdrQidx (s : State) (n : Nat) : (s.setReqLen n).hdrQidx = s.hdrQidx := rfl
@[simp] theorem State.setReqLen_hdrSerial (s : State) (n : Nat) : (s.setReqLen n).hdrSerial = s.hdrSerial := rfl
@[simp] theorem State.setReqLen_hdrValid (s : State) (n : Nat) : (s.setReqLen n).hdrValid = s.hdrValid := rfl
@[simp] theorem State.setReqLen_csumAcc (s : State) (n : Nat) : (s.setReqLen n).csumAcc = s.csumAcc := rfl
@[simp] theorem State.setReqLen_reqBuf (s : State) (n : Nat) : (s.setReqLen n).reqBuf = s.reqBuf := rfl
@[simp] theorem State.setReqLen_reqLen (s : State) (n : Nat) : (s.setReqLen n).reqLen = n := rfl
@[simp] theorem State.setReqLen_tsVal (s : State) (n : Nat) : (s.setReqLen n).tsVal = s.tsVal := rfl
@[simp] theorem State.setReqLen_tsExplicit (s : State) (n : Nat) : (s.setReqLen n).tsExplicit = s.tsExplicit := rfl
@[simp] theorem State.setReqLen_outBuf (s : State) (n : Nat) : (s.setReqLen n).outBuf = s.outBuf := rfl
@[simp] theorem State.setReqLen_outLen (s : State) (n : Nat) : (s.setReqLen n).outLen = s.outLen := rfl
@[simp] theorem State.setReqLen_err (s : State) (n : Nat) : (s.setReqLen n).err = s.err := rfl
@[simp] theorem State.setReqLen_faultMark (s : State) (n : Nat) : (s.setReqLen n).faultMark = s.faultMark := rfl
@[simp] theorem State.setReqLen_refusedMark (s : State) (n : Nat) : (s.setReqLen n).refusedMark = s.refusedMark := rfl
@[simp] theorem State.setReqLen_program (s : State) (n : Nat) : (s.setReqLen n).program = s.program := rfl
@[simp] theorem State.setReqLen_pc (s : State) (n : Nat) : (s.setReqLen n).pc = s.pc := rfl
@[simp] theorem State.setReqLen_results (s : State) (n : Nat) : (s.setReqLen n).results = s.results := rfl
@[simp] theorem State.setReqLen_nowDraws (s : State) (n : Nat) : (s.setReqLen n).nowDraws = s.nowDraws := rfl

/-! ### setTsVal -/

@[simp] theorem State.setTsVal_inBuf (s : State) (v : Word) : (s.setTsVal v).inBuf = s.inBuf := rfl
@[simp] theorem State.setTsVal_inLen (s : State) (v : Word) : (s.setTsVal v).inLen = s.inLen := rfl
@[simp] theorem State.setTsVal_hdrPlen (s : State) (v : Word) : (s.setTsVal v).hdrPlen = s.hdrPlen := rfl
@[simp] theorem State.setTsVal_hdrType (s : State) (v : Word) : (s.setTsVal v).hdrType = s.hdrType := rfl
@[simp] theorem State.setTsVal_hdrRidx (s : State) (v : Word) : (s.setTsVal v).hdrRidx = s.hdrRidx := rfl
@[simp] theorem State.setTsVal_hdrQidx (s : State) (v : Word) : (s.setTsVal v).hdrQidx = s.hdrQidx := rfl
@[simp] theorem State.setTsVal_hdrSerial (s : State) (v : Word) : (s.setTsVal v).hdrSerial = s.hdrSerial := rfl
@[simp] theorem State.setTsVal_hdrValid (s : State) (v : Word) : (s.setTsVal v).hdrValid = s.hdrValid := rfl
@[simp] theorem State.setTsVal_csumAcc (s : State) (v : Word) : (s.setTsVal v).csumAcc = s.csumAcc := rfl
@[simp] theorem State.setTsVal_reqBuf (s : State) (v : Word) : (s.setTsVal v).reqBuf = s.reqBuf := rfl
@[simp] theorem State.setTsVal_reqLen (s : State) (v : Word) : (s.setTsVal v).reqLen = s.reqLen := rfl
@[simp] theorem State.setTsVal_tsVal (s : State) (v : Word) : (s.setTsVal v).tsVal = v := rfl
@[simp] theorem State.setTsVal_tsExplicit (s : State) (v : Word) : (s.setTsVal v).tsExplicit = s.tsExplicit := rfl
@[simp] theorem State.setTsVal_outBuf (s : State) (v : Word) : (s.setTsVal v).outBuf = s.outBuf := rfl
@[simp] theorem State.setTsVal_outLen (s : State) (v : Word) : (s.setTsVal v).outLen = s.outLen := rfl
@[simp] theorem State.setTsVal_err (s : State) (v : Word) : (s.setTsVal v).err = s.err := rfl
@[simp] theorem State.setTsVal_faultMark (s : State) (v : Word) : (s.setTsVal v).faultMark = s.faultMark := rfl
@[simp] theorem State.setTsVal_refusedMark (s : State) (v : Word) : (s.setTsVal v).refusedMark = s.refusedMark := rfl
@[simp] theorem State.setTsVal_program (s : State) (v : Word) : (s.setTsVal v).program = s.program := rfl
@[simp] theorem State.setTsVal_pc (s : State) (v : Word) : (s.setTsVal v).pc = s.pc := rfl
@[simp] theorem State.setTsVal_results (s : State) (v : Word) : (s.setTsVal v).results = s.results := rfl
@[simp] theorem State.setTsVal_nowDraws (s : State) (v : Word) : (s.setTsVal v).nowDraws = s.nowDraws := rfl

/-! ### setTsExplicit -/

@[simp] theorem State.setTsExplicit_inBuf (s : State) (b : Bool) : (s.setTsExplicit b).inBuf = s.inBuf := rfl
@[simp] theorem State.setTsExplicit_inLen (s : State) (b : Bool) : (s.setTsExplicit b).inLen = s.inLen := rfl
@[simp] theorem State.setTsExplicit_hdrPlen (s : State) (b : Bool) : (s.setTsExplicit b).hdrPlen = s.hdrPlen := rfl
@[simp] theorem State.setTsExplicit_hdrType (s : State) (b : Bool) : (s.setTsExplicit b).hdrType = s.hdrType := rfl
@[simp] theorem State.setTsExplicit_hdrRidx (s : State) (b : Bool) : (s.setTsExplicit b).hdrRidx = s.hdrRidx := rfl
@[simp] theorem State.setTsExplicit_hdrQidx (s : State) (b : Bool) : (s.setTsExplicit b).hdrQidx = s.hdrQidx := rfl
@[simp] theorem State.setTsExplicit_hdrSerial (s : State) (b : Bool) : (s.setTsExplicit b).hdrSerial = s.hdrSerial := rfl
@[simp] theorem State.setTsExplicit_hdrValid (s : State) (b : Bool) : (s.setTsExplicit b).hdrValid = s.hdrValid := rfl
@[simp] theorem State.setTsExplicit_csumAcc (s : State) (b : Bool) : (s.setTsExplicit b).csumAcc = s.csumAcc := rfl
@[simp] theorem State.setTsExplicit_reqBuf (s : State) (b : Bool) : (s.setTsExplicit b).reqBuf = s.reqBuf := rfl
@[simp] theorem State.setTsExplicit_reqLen (s : State) (b : Bool) : (s.setTsExplicit b).reqLen = s.reqLen := rfl
@[simp] theorem State.setTsExplicit_tsVal (s : State) (b : Bool) : (s.setTsExplicit b).tsVal = s.tsVal := rfl
@[simp] theorem State.setTsExplicit_tsExplicit (s : State) (b : Bool) : (s.setTsExplicit b).tsExplicit = b := rfl
@[simp] theorem State.setTsExplicit_outBuf (s : State) (b : Bool) : (s.setTsExplicit b).outBuf = s.outBuf := rfl
@[simp] theorem State.setTsExplicit_outLen (s : State) (b : Bool) : (s.setTsExplicit b).outLen = s.outLen := rfl
@[simp] theorem State.setTsExplicit_err (s : State) (b : Bool) : (s.setTsExplicit b).err = s.err := rfl
@[simp] theorem State.setTsExplicit_faultMark (s : State) (b : Bool) : (s.setTsExplicit b).faultMark = s.faultMark := rfl
@[simp] theorem State.setTsExplicit_refusedMark (s : State) (b : Bool) : (s.setTsExplicit b).refusedMark = s.refusedMark := rfl
@[simp] theorem State.setTsExplicit_program (s : State) (b : Bool) : (s.setTsExplicit b).program = s.program := rfl
@[simp] theorem State.setTsExplicit_pc (s : State) (b : Bool) : (s.setTsExplicit b).pc = s.pc := rfl
@[simp] theorem State.setTsExplicit_results (s : State) (b : Bool) : (s.setTsExplicit b).results = s.results := rfl
@[simp] theorem State.setTsExplicit_nowDraws (s : State) (b : Bool) : (s.setTsExplicit b).nowDraws = s.nowDraws := rfl

/-! ### writeInBuf -/

@[simp] theorem State.writeInBuf_inBuf (s : State) (i : Nat) (b : Byte) : (s.writeInBuf i b).inBuf = s.inBuf.write i b := rfl
@[simp] theorem State.writeInBuf_inLen (s : State) (i : Nat) (b : Byte) : (s.writeInBuf i b).inLen = s.inLen := rfl
@[simp] theorem State.writeInBuf_hdrPlen (s : State) (i : Nat) (b : Byte) : (s.writeInBuf i b).hdrPlen = s.hdrPlen := rfl
@[simp] theorem State.writeInBuf_hdrType (s : State) (i : Nat) (b : Byte) : (s.writeInBuf i b).hdrType = s.hdrType := rfl
@[simp] theorem State.writeInBuf_hdrRidx (s : State) (i : Nat) (b : Byte) : (s.writeInBuf i b).hdrRidx = s.hdrRidx := rfl
@[simp] theorem State.writeInBuf_hdrQidx (s : State) (i : Nat) (b : Byte) : (s.writeInBuf i b).hdrQidx = s.hdrQidx := rfl
@[simp] theorem State.writeInBuf_hdrSerial (s : State) (i : Nat) (b : Byte) : (s.writeInBuf i b).hdrSerial = s.hdrSerial := rfl
@[simp] theorem State.writeInBuf_hdrValid (s : State) (i : Nat) (b : Byte) : (s.writeInBuf i b).hdrValid = s.hdrValid := rfl
@[simp] theorem State.writeInBuf_csumAcc (s : State) (i : Nat) (b : Byte) : (s.writeInBuf i b).csumAcc = s.csumAcc := rfl
@[simp] theorem State.writeInBuf_reqBuf (s : State) (i : Nat) (b : Byte) : (s.writeInBuf i b).reqBuf = s.reqBuf := rfl
@[simp] theorem State.writeInBuf_reqLen (s : State) (i : Nat) (b : Byte) : (s.writeInBuf i b).reqLen = s.reqLen := rfl
@[simp] theorem State.writeInBuf_tsVal (s : State) (i : Nat) (b : Byte) : (s.writeInBuf i b).tsVal = s.tsVal := rfl
@[simp] theorem State.writeInBuf_tsExplicit (s : State) (i : Nat) (b : Byte) : (s.writeInBuf i b).tsExplicit = s.tsExplicit := rfl
@[simp] theorem State.writeInBuf_outBuf (s : State) (i : Nat) (b : Byte) : (s.writeInBuf i b).outBuf = s.outBuf := rfl
@[simp] theorem State.writeInBuf_outLen (s : State) (i : Nat) (b : Byte) : (s.writeInBuf i b).outLen = s.outLen := rfl
@[simp] theorem State.writeInBuf_err (s : State) (i : Nat) (b : Byte) : (s.writeInBuf i b).err = s.err := rfl
@[simp] theorem State.writeInBuf_faultMark (s : State) (i : Nat) (b : Byte) : (s.writeInBuf i b).faultMark = s.faultMark := rfl
@[simp] theorem State.writeInBuf_refusedMark (s : State) (i : Nat) (b : Byte) : (s.writeInBuf i b).refusedMark = s.refusedMark := rfl
@[simp] theorem State.writeInBuf_program (s : State) (i : Nat) (b : Byte) : (s.writeInBuf i b).program = s.program := rfl
@[simp] theorem State.writeInBuf_pc (s : State) (i : Nat) (b : Byte) : (s.writeInBuf i b).pc = s.pc := rfl
@[simp] theorem State.writeInBuf_results (s : State) (i : Nat) (b : Byte) : (s.writeInBuf i b).results = s.results := rfl
@[simp] theorem State.writeInBuf_nowDraws (s : State) (i : Nat) (b : Byte) : (s.writeInBuf i b).nowDraws = s.nowDraws := rfl

/-! ### writeReqBuf -/

@[simp] theorem State.writeReqBuf_inBuf (s : State) (i : Nat) (b : Byte) : (s.writeReqBuf i b).inBuf = s.inBuf := rfl
@[simp] theorem State.writeReqBuf_inLen (s : State) (i : Nat) (b : Byte) : (s.writeReqBuf i b).inLen = s.inLen := rfl
@[simp] theorem State.writeReqBuf_hdrPlen (s : State) (i : Nat) (b : Byte) : (s.writeReqBuf i b).hdrPlen = s.hdrPlen := rfl
@[simp] theorem State.writeReqBuf_hdrType (s : State) (i : Nat) (b : Byte) : (s.writeReqBuf i b).hdrType = s.hdrType := rfl
@[simp] theorem State.writeReqBuf_hdrRidx (s : State) (i : Nat) (b : Byte) : (s.writeReqBuf i b).hdrRidx = s.hdrRidx := rfl
@[simp] theorem State.writeReqBuf_hdrQidx (s : State) (i : Nat) (b : Byte) : (s.writeReqBuf i b).hdrQidx = s.hdrQidx := rfl
@[simp] theorem State.writeReqBuf_hdrSerial (s : State) (i : Nat) (b : Byte) : (s.writeReqBuf i b).hdrSerial = s.hdrSerial := rfl
@[simp] theorem State.writeReqBuf_hdrValid (s : State) (i : Nat) (b : Byte) : (s.writeReqBuf i b).hdrValid = s.hdrValid := rfl
@[simp] theorem State.writeReqBuf_csumAcc (s : State) (i : Nat) (b : Byte) : (s.writeReqBuf i b).csumAcc = s.csumAcc := rfl
@[simp] theorem State.writeReqBuf_reqBuf (s : State) (i : Nat) (b : Byte) : (s.writeReqBuf i b).reqBuf = s.reqBuf.write i b := rfl
@[simp] theorem State.writeReqBuf_reqLen (s : State) (i : Nat) (b : Byte) : (s.writeReqBuf i b).reqLen = s.reqLen := rfl
@[simp] theorem State.writeReqBuf_tsVal (s : State) (i : Nat) (b : Byte) : (s.writeReqBuf i b).tsVal = s.tsVal := rfl
@[simp] theorem State.writeReqBuf_tsExplicit (s : State) (i : Nat) (b : Byte) : (s.writeReqBuf i b).tsExplicit = s.tsExplicit := rfl
@[simp] theorem State.writeReqBuf_outBuf (s : State) (i : Nat) (b : Byte) : (s.writeReqBuf i b).outBuf = s.outBuf := rfl
@[simp] theorem State.writeReqBuf_outLen (s : State) (i : Nat) (b : Byte) : (s.writeReqBuf i b).outLen = s.outLen := rfl
@[simp] theorem State.writeReqBuf_err (s : State) (i : Nat) (b : Byte) : (s.writeReqBuf i b).err = s.err := rfl
@[simp] theorem State.writeReqBuf_faultMark (s : State) (i : Nat) (b : Byte) : (s.writeReqBuf i b).faultMark = s.faultMark := rfl
@[simp] theorem State.writeReqBuf_refusedMark (s : State) (i : Nat) (b : Byte) : (s.writeReqBuf i b).refusedMark = s.refusedMark := rfl
@[simp] theorem State.writeReqBuf_program (s : State) (i : Nat) (b : Byte) : (s.writeReqBuf i b).program = s.program := rfl
@[simp] theorem State.writeReqBuf_pc (s : State) (i : Nat) (b : Byte) : (s.writeReqBuf i b).pc = s.pc := rfl
@[simp] theorem State.writeReqBuf_results (s : State) (i : Nat) (b : Byte) : (s.writeReqBuf i b).results = s.results := rfl
@[simp] theorem State.writeReqBuf_nowDraws (s : State) (i : Nat) (b : Byte) : (s.writeReqBuf i b).nowDraws = s.nowDraws := rfl

/-! ### pushResult -/

@[simp] theorem State.pushResult_inBuf (s : State) (v : Word) : (s.pushResult v).inBuf = s.inBuf := rfl
@[simp] theorem State.pushResult_inLen (s : State) (v : Word) : (s.pushResult v).inLen = s.inLen := rfl
@[simp] theorem State.pushResult_hdrPlen (s : State) (v : Word) : (s.pushResult v).hdrPlen = s.hdrPlen := rfl
@[simp] theorem State.pushResult_hdrType (s : State) (v : Word) : (s.pushResult v).hdrType = s.hdrType := rfl
@[simp] theorem State.pushResult_hdrRidx (s : State) (v : Word) : (s.pushResult v).hdrRidx = s.hdrRidx := rfl
@[simp] theorem State.pushResult_hdrQidx (s : State) (v : Word) : (s.pushResult v).hdrQidx = s.hdrQidx := rfl
@[simp] theorem State.pushResult_hdrSerial (s : State) (v : Word) : (s.pushResult v).hdrSerial = s.hdrSerial := rfl
@[simp] theorem State.pushResult_hdrValid (s : State) (v : Word) : (s.pushResult v).hdrValid = s.hdrValid := rfl
@[simp] theorem State.pushResult_csumAcc (s : State) (v : Word) : (s.pushResult v).csumAcc = s.csumAcc := rfl
@[simp] theorem State.pushResult_reqBuf (s : State) (v : Word) : (s.pushResult v).reqBuf = s.reqBuf := rfl
@[simp] theorem State.pushResult_reqLen (s : State) (v : Word) : (s.pushResult v).reqLen = s.reqLen := rfl
@[simp] theorem State.pushResult_tsVal (s : State) (v : Word) : (s.pushResult v).tsVal = s.tsVal := rfl
@[simp] theorem State.pushResult_tsExplicit (s : State) (v : Word) : (s.pushResult v).tsExplicit = s.tsExplicit := rfl
@[simp] theorem State.pushResult_outBuf (s : State) (v : Word) : (s.pushResult v).outBuf = s.outBuf := rfl
@[simp] theorem State.pushResult_outLen (s : State) (v : Word) : (s.pushResult v).outLen = s.outLen := rfl
@[simp] theorem State.pushResult_err (s : State) (v : Word) : (s.pushResult v).err = s.err := rfl
@[simp] theorem State.pushResult_faultMark (s : State) (v : Word) : (s.pushResult v).faultMark = s.faultMark := rfl
@[simp] theorem State.pushResult_refusedMark (s : State) (v : Word) : (s.pushResult v).refusedMark = s.refusedMark := rfl
@[simp] theorem State.pushResult_program (s : State) (v : Word) : (s.pushResult v).program = s.program := rfl
@[simp] theorem State.pushResult_pc (s : State) (v : Word) : (s.pushResult v).pc = s.pc := rfl
@[simp] theorem State.pushResult_results (s : State) (v : Word) : (s.pushResult v).results = s.results ++ [v] := rfl
@[simp] theorem State.pushResult_nowDraws (s : State) (v : Word) : (s.pushResult v).nowDraws = s.nowDraws := rfl

/-! ### advance -/

@[simp] theorem State.advance_inBuf (s : State) : s.advance.inBuf = s.inBuf := rfl
@[simp] theorem State.advance_inLen (s : State) : s.advance.inLen = s.inLen := rfl
@[simp] theorem State.advance_hdrPlen (s : State) : s.advance.hdrPlen = s.hdrPlen := rfl
@[simp] theorem State.advance_hdrType (s : State) : s.advance.hdrType = s.hdrType := rfl
@[simp] theorem State.advance_hdrRidx (s : State) : s.advance.hdrRidx = s.hdrRidx := rfl
@[simp] theorem State.advance_hdrQidx (s : State) : s.advance.hdrQidx = s.hdrQidx := rfl
@[simp] theorem State.advance_hdrSerial (s : State) : s.advance.hdrSerial = s.hdrSerial := rfl
@[simp] theorem State.advance_hdrValid (s : State) : s.advance.hdrValid = s.hdrValid := rfl
@[simp] theorem State.advance_csumAcc (s : State) : s.advance.csumAcc = s.csumAcc := rfl
@[simp] theorem State.advance_reqBuf (s : State) : s.advance.reqBuf = s.reqBuf := rfl
@[simp] theorem State.advance_reqLen (s : State) : s.advance.reqLen = s.reqLen := rfl
@[simp] theorem State.advance_tsVal (s : State) : s.advance.tsVal = s.tsVal := rfl
@[simp] theorem State.advance_tsExplicit (s : State) : s.advance.tsExplicit = s.tsExplicit := rfl
@[simp] theorem State.advance_outBuf (s : State) : s.advance.outBuf = s.outBuf := rfl
@[simp] theorem State.advance_outLen (s : State) : s.advance.outLen = s.outLen := rfl
@[simp] theorem State.advance_err (s : State) : s.advance.err = s.err := rfl
@[simp] theorem State.advance_faultMark (s : State) : s.advance.faultMark = s.faultMark := rfl
@[simp] theorem State.advance_refusedMark (s : State) : s.advance.refusedMark = s.refusedMark := rfl
@[simp] theorem State.advance_program (s : State) : s.advance.program = s.program := rfl
@[simp] theorem State.advance_pc (s : State) : s.advance.pc = s.pc + 1 := rfl
@[simp] theorem State.advance_results (s : State) : s.advance.results = s.results := rfl
@[simp] theorem State.advance_nowDraws (s : State) : s.advance.nowDraws = s.nowDraws := rfl

/-! ### resetBlock -/

@[simp] theorem State.resetBlock_inBuf (s : State) : s.resetBlock.inBuf = [] := rfl
@[simp] theorem State.resetBlock_inLen (s : State) : s.resetBlock.inLen = 0 := rfl
@[simp] theorem State.resetBlock_hdrPlen (s : State) : s.resetBlock.hdrPlen = 0 := rfl
@[simp] theorem State.resetBlock_hdrType (s : State) : s.resetBlock.hdrType = 0 := rfl
@[simp] theorem State.resetBlock_hdrRidx (s : State) : s.resetBlock.hdrRidx = 0 := rfl
@[simp] theorem State.resetBlock_hdrQidx (s : State) : s.resetBlock.hdrQidx = 0 := rfl
@[simp] theorem State.resetBlock_hdrSerial (s : State) : s.resetBlock.hdrSerial = 0 := rfl
@[simp] theorem State.resetBlock_hdrValid (s : State) : s.resetBlock.hdrValid = false := rfl
@[simp] theorem State.resetBlock_csumAcc (s : State) : s.resetBlock.csumAcc = 0 := rfl
@[simp] theorem State.resetBlock_reqBuf (s : State) : s.resetBlock.reqBuf = [] := rfl
@[simp] theorem State.resetBlock_reqLen (s : State) : s.resetBlock.reqLen = 0 := rfl
@[simp] theorem State.resetBlock_tsVal (s : State) : s.resetBlock.tsVal = 0 := rfl
@[simp] theorem State.resetBlock_tsExplicit (s : State) : s.resetBlock.tsExplicit = false := rfl
@[simp] theorem State.resetBlock_outBuf (s : State) : s.resetBlock.outBuf = Vector.replicate 23 0 := rfl
@[simp] theorem State.resetBlock_outLen (s : State) : s.resetBlock.outLen = 0 := rfl
@[simp] theorem State.resetBlock_err (s : State) : s.resetBlock.err = 0 := rfl
@[simp] theorem State.resetBlock_faultMark (s : State) : s.resetBlock.faultMark = s.faultMark := rfl
@[simp] theorem State.resetBlock_refusedMark (s : State) : s.resetBlock.refusedMark = s.refusedMark := rfl
@[simp] theorem State.resetBlock_program (s : State) : s.resetBlock.program = s.program := rfl
@[simp] theorem State.resetBlock_pc (s : State) : s.resetBlock.pc = s.pc := rfl
@[simp] theorem State.resetBlock_results (s : State) : s.resetBlock.results = s.results := rfl
@[simp] theorem State.resetBlock_nowDraws (s : State) : s.resetBlock.nowDraws = s.nowDraws := rfl

/-! ### the error operation, spelled over the updates -/

/-- A command that succeeds leaves the code 0. -/
theorem State.succeed_eq (s : State) : s.succeed = s.setErr 0 := rfl

/-- What taking each error leaves (R121 to R126). -/
theorem State.takeError_eq (s : State) (e : HwError) :
    s.takeError e = match e with
      | .formatError => (s.setHeader Header.zero false).setErr 1
      | .argumentError => (s.setOut (Vector.replicate 23 0) 0).setErr 2
      | .noHeader => (s.setOut (Vector.replicate 23 0) 0).setErr 3
      | .respTypeRange => (s.setOut (Vector.replicate 23 0) 0).setErr 4
      | .illegalCommand => s.setErr 5 := by
  cases e <;> rfl

@[simp] theorem Header.zero_plen : Header.zero.plen = 0 := rfl
@[simp] theorem Header.zero_type : Header.zero.type = 0 := rfl
@[simp] theorem Header.zero_ridx : Header.zero.ridx = 0 := rfl
@[simp] theorem Header.zero_qidx : Header.zero.qidx = 0 := rfl
@[simp] theorem Header.zero_serial : Header.zero.serial = 0 := rfl

end Sys2Proof.Machine
end

