-- ==== Sys2Proof/Laws/Operands.lean ====
section
/-! SUPPORT. The laws of the operand forms: what a buffer read answers, and that little-endian fields are put together and
taken apart without loss. -/

namespace Sys2Proof.Machine

/-! ### sequencing -/

@[simp] theorem bind_ok {α β : Type} (a : α) (f : α → Except Fault β) : (Except.ok a >>= f) = f a := rfl

@[simp] theorem bind_error {α β : Type} (e : Fault) (f : α → Except Fault β) :
    ((Except.error e : Except Fault α) >>= f) = Except.error e := rfl

/-- A sequence answers exactly when both of its parts do. -/
theorem bind_eq_ok {α β : Type} {x : Except Fault α} {f : α → Except Fault β} {b : β} :
    (x >>= f) = .ok b ↔ ∃ a, x = .ok a ∧ f a = .ok b := by
  cases x <;> simp

/-- A sequence faults exactly when its first part does, or its first part answers and its second faults. -/
theorem bind_eq_error {α β : Type} {x : Except Fault α} {f : α → Except Fault β} {e : Fault} :
    (x >>= f) = .error e ↔ x = .error e ∨ ∃ a, x = .ok a ∧ f a = .error e := by
  cases x <;> simp

/-! ### one byte -/

/-- A byte of IN_BUF answers exactly when it is written (R25). -/
theorem State.readByte_inBuf_ok {s : State} {i : Nat} {b : Byte} :
    s.readByte .inBuf i = .ok b ↔ s.inBuf.read i = some b := by
  unfold State.readByte
  cases h : s.inBuf.read i <;> simp

/-- A byte of REQ_BUF answers exactly when it is written (R34). -/
theorem State.readByte_reqBuf_ok {s : State} {i : Nat} {b : Byte} :
    s.readByte .reqBuf i = .ok b ↔ s.reqBuf.read i = some b := by
  unfold State.readByte
  cases h : s.reqBuf.read i <;> simp

/-- A byte of OUT_BUF always answers (R38). -/
theorem State.readByte_outBuf (s : State) {i : Nat} (h : i < 23) : s.readByte .outBuf i = .ok s.outBuf[i] := by
  simp [State.readByte, h]

/-- An unwritten byte of IN_BUF faults (R16). -/
theorem State.readByte_inBuf_none {s : State} {i : Nat} (h : s.inBuf.read i = none) :
    s.readByte .inBuf i = .error (.uninit .inBuf i) := by
  simp [State.readByte, h]

/-- An unwritten byte of REQ_BUF faults (R16). -/
theorem State.readByte_reqBuf_none {s : State} {i : Nat} (h : s.reqBuf.read i = none) :
    s.readByte .reqBuf i = .error (.uninit .reqBuf i) := by
  simp [State.readByte, h]

/-- The only fault of a byte read is that of its own byte. -/
theorem State.readByte_error {s : State} {e : Buf} {i : Nat} {f : Fault} (h : s.readByte e i = .error f) :
    f = .uninit e i := by
  unfold State.readByte at h
  split at h <;> simp_all

/-! ### fields -/

/-- `le16` is the concatenation with the higher offset on the left (R11). -/
theorem le16_eq (b0 b1 : Byte) : le16 b0 b1 = (b1 ++ b0 : BitVec (8 + 8)) := by
  apply BitVec.eq_of_toNat_eq
  have h0 := b0.isLt
  have h1 := b1.isLt
  simp only [le16, BitVec.toNat_or, BitVec.toNat_setWidth, BitVec.toNat_shiftLeft, BitVec.toNat_append,
    Nat.shiftLeft_eq]
  rw [Nat.or_comm, Nat.mod_eq_of_lt (show b0.toNat < 2 ^ 16 by omega), Nat.mod_eq_of_lt (show b1.toNat < 2 ^ 16 by omega),
    Nat.mod_eq_of_lt (by omega)]

/-- The value of `le16` (R11). -/
theorem le16_toNat (b0 b1 : Byte) : (le16 b0 b1).toNat = b0.toNat + 256 * b1.toNat := by
  rw [le16_eq, BitVec.toNat_append, ← Nat.shiftLeft_add_eq_or_of_lt b0.isLt, Nat.shiftLeft_eq]
  omega

/-- The value of `le32` (R11). -/
theorem le32_toNat (b0 b1 b2 b3 : Byte) :
    (le32 b0 b1 b2 b3).toNat = b0.toNat + 256 * b1.toNat + 65536 * b2.toNat + 16777216 * b3.toNat := by
  have h0 := b0.isLt
  have h1 := b1.isLt
  have h2 := b2.isLt
  have h3 := b3.isLt
  have shifted : ∀ (b : Byte) (k : Nat), k ≤ 24 → (b.setWidth 32 <<< k).toNat = b.toNat <<< k := by
    intro b k hk
    have hb := b.isLt
    have hp : 2 ^ k ≤ 2 ^ 24 := Nat.pow_le_pow_right (by omega) hk
    rw [BitVec.toNat_shiftLeft, BitVec.toNat_setWidth, Nat.mod_eq_of_lt (show b.toNat < 2 ^ 32 by omega),
      Nat.mod_eq_of_lt]
    rw [Nat.shiftLeft_eq]
    calc b.toNat * 2 ^ k ≤ 255 * 2 ^ 24 := Nat.mul_le_mul (by omega) hp
      _ < 2 ^ 32 := by omega
  have joined : ∀ (x y k : Nat), x < 2 ^ k → x ||| y <<< k = x + 2 ^ k * y := by
    intro x y k hx
    rw [Nat.or_comm, ← Nat.shiftLeft_add_eq_or_of_lt hx, Nat.shiftLeft_eq, Nat.mul_comm, Nat.add_comm]
  simp only [le32, BitVec.toNat_or, shifted _ 8 (by omega), shifted _ 16 (by omega), shifted _ 24 (by omega)]
  rw [BitVec.toNat_setWidth, Nat.mod_eq_of_lt (by omega), joined _ _ 8 h0, joined _ _ 16 (by omega),
    joined _ _ 24 (by omega)]
  omega

/-- A word is the `le32` of its own bytes (R11, R12). -/
theorem le32_byteOf (v : Word) : le32 (byteOf v 0) (byteOf v 1) (byteOf v 2) (byteOf v 3) = v := by
  apply BitVec.eq_of_toNat_eq
  have h := v.isLt
  rw [le32_toNat]
  simp only [byteOf, BitVec.extractLsb'_toNat, Nat.shiftRight_eq_div_pow]
  omega

/-- A little-endian half answers exactly when its two bytes do (R11, R51). -/
theorem State.readLe16_ok {s : State} {e : Buf} {o : Nat} {v : Half} :
    s.readLe16 e o = .ok v ↔
      ∃ b0 b1, s.readByte e o = .ok b0 ∧ s.readByte e (o + 1) = .ok b1 ∧ v = le16 b0 b1 := by
  simp only [State.readLe16, bind_eq_ok, Except.ok.injEq]
  constructor
  · rintro ⟨b0, h0, b1, h1, rfl⟩
    exact ⟨b0, b1, h0, h1, rfl⟩
  · rintro ⟨b0, b1, h0, h1, rfl⟩
    exact ⟨b0, h0, b1, h1, rfl⟩

/-- A little-endian word answers exactly when its four bytes do (R11, R51). -/
theorem State.readLe32_ok {s : State} {e : Buf} {o : Nat} {v : Word} :
    s.readLe32 e o = .ok v ↔
      ∃ b0 b1 b2 b3, s.readByte e o = .ok b0 ∧ s.readByte e (o + 1) = .ok b1 ∧ s.readByte e (o + 2) = .ok b2 ∧
        s.readByte e (o + 3) = .ok b3 ∧ v = le32 b0 b1 b2 b3 := by
  simp only [State.readLe32, bind_eq_ok, Except.ok.injEq]
  constructor
  · rintro ⟨b0, h0, b1, h1, b2, h2, b3, h3, rfl⟩
    exact ⟨b0, b1, b2, b3, h0, h1, h2, h3, rfl⟩
  · rintro ⟨b0, b1, b2, b3, h0, h1, h2, h3, rfl⟩
    exact ⟨b0, h0, b1, h1, b2, h2, b3, h3, rfl⟩

/-! ### sequences -/

/-- A run of bytes answers the list of its bytes. -/
theorem State.readBytes_ok {s : State} {e : Buf} {o n : Nat} {bs : List Byte} :
    s.readBytes e o n = .ok bs ↔
      bs.length = n ∧ ∀ k, (h : k < bs.length) → s.readByte e (o + k) = .ok bs[k] := by
  induction n generalizing o bs with
  | zero =>
    constructor
    · intro h
      cases h
      simp
    · rintro ⟨h, -⟩
      simp [State.readBytes, List.length_eq_zero_iff.1 h]
  | succ n ih =>
    simp only [State.readBytes, bind_eq_ok, ih]
    constructor
    · rintro ⟨b, hb, cs, ⟨hl, hc⟩, h⟩
      cases h
      refine ⟨by simp [hl], fun k hk => ?_⟩
      cases k with
      | zero => simpa using hb
      | succ k =>
        have := hc k (by simpa using hk)
        rw [show o + (k + 1) = o + 1 + k by omega, this]
        simp
    · rintro ⟨hl, h⟩
      cases bs with
      | nil => simp at hl
      | cons b bs =>
        refine ⟨b, h 0 (by simp), bs, ⟨by simpa using hl, fun k hk => ?_⟩, rfl⟩
        have := h (k + 1) (by simpa using hk)
        rw [show o + (k + 1) = o + 1 + k by omega] at this
        simpa using this

/-- A run of bytes faults at its first unwritten byte. -/
theorem State.readBytes_error {s : State} {e : Buf} {o n : Nat} {f : Fault} (h : s.readBytes e o n = .error f) :
    ∃ k < n, s.readByte e (o + k) = .error f ∧ ∀ j < k, ∃ b, s.readByte e (o + j) = .ok b := by
  induction n generalizing o with
  | zero => cases h
  | succ n ih =>
    simp only [State.readBytes, bind_eq_error] at h
    rcases h with h | ⟨b, hb, h | ⟨bs, -, h⟩⟩
    · exact ⟨0, by omega, h, by simp⟩
    · obtain ⟨k, hk, hf, hj⟩ := ih h
      refine ⟨k + 1, by omega, by rwa [show o + (k + 1) = o + 1 + k by omega], fun j hjk => ?_⟩
      cases j with
      | zero => exact ⟨b, hb⟩
      | succ j =>
        rw [show o + (j + 1) = o + 1 + j by omega]
        exact hj j (by omega)
    · cases h

end Sys2Proof.Machine
end

