-- ==== Sys2Proof/Laws/Commands.lean ====
section
/-! SUPPORT. What each command can do, said once: the next states it can answer, the faults it can raise, and that it is
never refused. Proofs about commands cite these and do not unfold the meanings. -/

namespace Sys2Proof.Machine

/-! ### PARSE_HDR -/

/-- The header read answers when the nine field bytes are written (R88). -/
theorem State.readHeader_ok {s : State} {b1 b2 b4 b5 b6 b7 b8 b9 b10 : Byte}
    (h1 : s.inBuf.read 1 = some b1) (h2 : s.inBuf.read 2 = some b2) (h4 : s.inBuf.read 4 = some b4)
    (h5 : s.inBuf.read 5 = some b5) (h6 : s.inBuf.read 6 = some b6) (h7 : s.inBuf.read 7 = some b7)
    (h8 : s.inBuf.read 8 = some b8) (h9 : s.inBuf.read 9 = some b9) (h10 : s.inBuf.read 10 = some b10) :
    s.readHeader = .ok { plen := le16 b1 b2, type := b4, ridx := b5, qidx := b6, serial := le32 b7 b8 b9 b10 } := by
  simp [State.readHeader, State.readLe16, State.readLe32, State.readByte, h1, h2, h4, h5, h6, h7, h8, h9, h10]

/-- The header read depends on IN_BUF alone. -/
theorem State.readHeader_congr {s t : State} (h : ∀ k ∈ [1, 2, 4, 5, 6, 7, 8, 9, 10], t.inBuf.read k = s.inBuf.read k) :
    t.readHeader = s.readHeader := by
  simp only [List.forall_mem_cons] at h
  simp only [State.readHeader, State.readLe16, State.readLe32, State.readByte]
  simp [h]

/-- The next states of PARSE_HDR (R81). -/
theorem execParseHdr_next {s t : State} (h : execParseHdr s = .next t) :
    (s.inLen < 11 ∧ t = (s.setHeader Header.zero false).setErr 1) ∨
    (11 ≤ s.inLen ∧ ∃ hd, s.readHeader = .ok hd ∧ t = (s.setHeader hd true).setErr 0) := by
  unfold execParseHdr at h
  split at h
  · exact .inl ⟨‹_›, by cases h; rfl⟩
  · split at h
    · cases h
    · exact .inr ⟨by omega, _, ‹_›, by cases h; rfl⟩

/-- PARSE_HDR faults only after its length check has passed (R129). -/
theorem execParseHdr_fault {s : State} {f : Fault} (h : execParseHdr s = .fault f) :
    11 ≤ s.inLen ∧ s.readHeader = .error f := by
  unfold execParseHdr at h
  split at h
  · cases h
  · split at h
    · exact ⟨by omega, by cases h; assumption⟩
    · cases h

theorem execParseHdr_not_refused {s : State} {r : Refusal} : execParseHdr s ≠ .refused r := by
  unfold execParseHdr
  split
  · simp
  · split <;> simp

/-! ### the checksum commands -/

theorem execCsumClr_eq (s : State) : execCsumClr s = .next ((s.setCsumAcc 0).setErr 0) := rfl

theorem execCsumAdd_eq (imm : Byte) (s : State) :
    execCsumAdd imm s = .next ((s.setCsumAcc (csumStep s.csumAcc imm)).setErr 0) := rfl

/-- The next states of CSUM_IN (R99). -/
theorem execCsumIn_next {s t : State} (h : execCsumIn s = .next t) :
    ∃ bs, s.readBytes .inBuf 0 s.inLen = .ok bs ∧ t = (s.setCsumAcc (csumFrom s.csumAcc bs)).setErr 0 := by
  unfold execCsumIn at h
  split at h
  · cases h
  · exact ⟨_, ‹_›, by cases h; rfl⟩

theorem execCsumIn_fault {s : State} {f : Fault} (h : execCsumIn s = .fault f) :
    s.readBytes .inBuf 0 s.inLen = .error f := by
  unfold execCsumIn at h
  split at h
  · cases h
    assumption
  · cases h

theorem execCsumIn_not_refused {s : State} {r : Refusal} : execCsumIn s ≠ .refused r := by
  unfold execCsumIn
  split <;> simp

/-! ### BUILD_RSP -/

/-- The only errors of the builder's checks, each with its condition (R114). -/
theorem buildError_eq_some {s : State} {e : HwError} (h : buildError s = some e) :
    (e = .noHeader ∧ s.hdrValid = false) ∨
    (e = .argumentError ∧ s.hdrValid = true ∧ s.reqLen = 0) ∨
    (e = .respTypeRange ∧ s.hdrValid = true ∧ s.reqLen ≠ 0 ∧ s.hdrType.toNat < 0x30) := by
  unfold buildError at h
  split at h
  · exact .inl ⟨by cases h; rfl, ‹_›⟩
  · split at h
    · exact .inr (.inl ⟨by cases h; rfl, by simpa using ‹¬ _ = false›, ‹_›⟩)
    · split at h
      · exact .inr (.inr ⟨by cases h; rfl, by simpa using ‹¬ _ = false›, ‹_›, ‹_›⟩)
      · cases h

/-- The builder's checks all pass (R114). -/
theorem buildError_eq_none {s : State} :
    buildError s = none ↔ s.hdrValid = true ∧ s.reqLen ≠ 0 ∧ 0x30 ≤ s.hdrType.toNat := by
  unfold buildError
  cases s.hdrValid
  · simp
  · split_ifs <;> simp_all

/-- The next states of BUILD_RSP (R105). -/
theorem execBuildRsp_next {s t : State} (h : execBuildRsp s = .next t) :
    (∃ e, buildError s = some e ∧ t = (s.setOut (Vector.replicate 23 0) 0).setErr e.code) ∨
    (buildError s = none ∧ ∃ echo, s.reqBuf.read 0 = some echo ∧
      t = ((s.setOut (outBufOf (responseFrame s.hdrType s.hdrQidx s.hdrSerial echo s.timestamp)
        (responseFrame_length ..)) 23).sampleTime).setErr 0) := by
  unfold execBuildRsp at h
  split at h
  · rename_i e he
    refine .inl ⟨e, he, ?_⟩
    cases h
    rcases buildError_eq_some he with ⟨rfl, -⟩ | ⟨rfl, -⟩ | ⟨rfl, -⟩ <;> rfl
  · split at h
    · cases h
    · exact .inr ⟨‹_›, _, State.readByte_reqBuf_ok.1 ‹_›, by cases h; rfl⟩

/-- BUILD_RSP faults only after its error checks have passed (R129), and only for the echoed byte. -/
theorem execBuildRsp_fault {s : State} {f : Fault} (h : execBuildRsp s = .fault f) :
    buildError s = none ∧ s.readByte .reqBuf 0 = .error f := by
  unfold execBuildRsp at h
  split at h
  · cases h
  · split at h
    · exact ⟨‹_›, by cases h; assumption⟩
    · cases h

theorem execBuildRsp_not_refused {s : State} {r : Refusal} : execBuildRsp s ≠ .refused r := by
  unfold execBuildRsp
  split
  · simp
  · split <;> simp

/-- Taking a time sample changes no field but the count of samples. -/
theorem State.sampleTime_eq (s : State) :
    s.sampleTime = { s with nowDraws := s.nowDraws + if s.tsExplicit then 0 else 1 } := by
  unfold State.sampleTime
  split <;> rfl

/-! ### any command -/

/-- No command touches what is the host's or the model's: the host's list, its index and results, and the marks. -/
theorem exec_keeps_host {i : Instr} {s t : State} (h : exec i s = .next t) :
    t.program = s.program ∧ t.pc = s.pc ∧ t.results = s.results ∧ t.faultMark = s.faultMark ∧
      t.refusedMark = s.refusedMark := by
  cases i with
  | parseHdr => rcases execParseHdr_next h with ⟨-, rfl⟩ | ⟨-, hd, -, rfl⟩ <;> exact ⟨rfl, rfl, rfl, rfl, rfl⟩
  | csumClr => cases h; exact ⟨rfl, rfl, rfl, rfl, rfl⟩
  | csumAdd imm => cases h; exact ⟨rfl, rfl, rfl, rfl, rfl⟩
  | csumIn => obtain ⟨bs, -, rfl⟩ := execCsumIn_next h; exact ⟨rfl, rfl, rfl, rfl, rfl⟩
  | buildRsp =>
    rcases execBuildRsp_next h with ⟨e, -, rfl⟩ | ⟨-, e, -, rfl⟩
    · exact ⟨rfl, rfl, rfl, rfl, rfl⟩
    · rw [State.sampleTime_eq]
      exact ⟨rfl, rfl, rfl, rfl, rfl⟩

/-- No command is refused (R134). -/
theorem exec_not_refused {i : Instr} {s : State} {r : Refusal} : exec i s ≠ .refused r := by
  cases i with
  | parseHdr => exact execParseHdr_not_refused
  | csumClr => simp [exec, execCsumClr]
  | csumAdd => simp [exec, execCsumAdd]
  | csumIn => exact execCsumIn_not_refused
  | buildRsp => exact execBuildRsp_not_refused

end Sys2Proof.Machine
end

