-- ==== Sys2Proof/Laws/Config.lean ====
section
/-! SUPPORT. The legal ranges of the two capacities (00_scope R5). -/

namespace Sys2Proof

theorem Config.inCap_ge : 11 ≤ Config.inCap := Nat.le_add_right ..

theorem Config.inCap_le : Config.inCap ≤ 4096 := by
  have := Config.inCapExtra.isLt
  unfold Config.inCap
  omega

theorem Config.reqCap_ge : 1 ≤ Config.reqCap := Nat.le_add_right ..

theorem Config.reqCap_le : Config.reqCap ≤ 256 := by
  have := Config.reqCapExtra.isLt
  unfold Config.reqCap
  omega

end Sys2Proof
end

