-- ==== Sys2Proof/Laws/Bus.lean ====
section
/-! SUPPORT. What a host access can do, said once: which accesses reach something, and the next states of a read, a write
and the reset input. -/

namespace Sys2Proof.Machine

/-! ### the address map -/

/-- A mapped offset lies in its window, below the window's capacity (R22). -/
theorem windowByte_eq_some {ic rc a : Nat} {e : Buf} {i : Nat} (h : windowByte ic rc a = some (e, i)) :
    (e = .reqBuf ∧ a = 0x0100 + i ∧ i < rc) ∨ (e = .outBuf ∧ a = 0x0200 + i ∧ i < 23) ∨
    (e = .inBuf ∧ a = 0x1000 + i ∧ i < ic) := by
  unfold windowByte at h
  split at h
  · cases h
    exact .inl ⟨rfl, by omega, by omega⟩
  · split at h
    · cases h
      exact .inr (.inl ⟨rfl, by omega, by omega⟩)
    · split at h
      · cases h
        exact .inr (.inr ⟨rfl, by omega, by omega⟩)
      · cases h

/-- REQ_BUF's bytes are mapped where R22 says. -/
theorem windowByte_reqBuf {ic rc i : Nat} (h : i < rc) : windowByte ic rc (0x0100 + i) = some (.reqBuf, i) := by
  unfold windowByte
  rw [if_pos (by omega)]
  simp

/-- OUT_BUF's bytes are mapped where R22 says. -/
theorem windowByte_outBuf {ic rc i : Nat} (hr : rc ≤ 256) (h : i < 23) :
    windowByte ic rc (0x0200 + i) = some (.outBuf, i) := by
  unfold windowByte
  rw [if_neg (by omega), if_pos (by omega)]
  simp

/-- IN_BUF's bytes are mapped where R22 says. -/
theorem windowByte_inBuf {ic rc i : Nat} (hr : rc ≤ 256) (h : i < ic) :
    windowByte ic rc (0x1000 + i) = some (.inBuf, i) := by
  unfold windowByte
  rw [if_neg (by omega), if_neg (by omega), if_pos (by omega)]
  simp

/-- What a legal access reaches: a register named by its offset (R44), a byte, or four bytes of one window (R45). -/
theorem locate_ok {ic rc a n : Nat} {t : Target} (h : locate ic rc a n = .ok t) :
    (∃ r, t = .reg r ∧ n = 4 ∧ a < 0x0034 ∧ a % 4 = 0 ∧ registerMap[a / 4]? = some r) ∨
    (∃ e i, t = .byte e i ∧ n = 1 ∧ 0x0034 ≤ a ∧ windowByte ic rc a = some (e, i)) ∨
    (∃ e i, t = .word e i ∧ n = 4 ∧ 0x0034 ≤ a ∧ a % 4 = 0 ∧ windowByte ic rc a = some (e, i) ∧
      windowByte ic rc (a + 1) = some (e, i + 1) ∧ windowByte ic rc (a + 2) = some (e, i + 2) ∧
      windowByte ic rc (a + 3) = some (e, i + 3)) := by
  unfold locate at h
  split at h
  · cases h
  · split at h
    · split at h
      · cases h
      · split at h
        · cases h
        · split at h
          · cases h
            exact .inl ⟨_, rfl, by omega, ‹_›, by omega, ‹_›⟩
          · cases h
    · split at h
      · cases h
      · split at h
        · cases h
          exact .inr (.inl ⟨_, _, rfl, ‹_›, by omega, ‹_›⟩)
        · split at h
          · cases h
          · split at h
            · cases h
              rename_i hw
              exact .inr (.inr ⟨_, _, rfl, by omega, by omega, by omega, ‹_›, hw.1, hw.2.1, hw.2.2⟩)
            · cases h

/-- A 1-byte access to a mapped byte reaches it (R45). -/
theorem locate_byte {ic rc a : Nat} {e : Buf} {i : Nat} (h : windowByte ic rc a = some (e, i)) :
    locate ic rc a 1 = .ok (.byte e i) := by
  have ha : ¬ a < 0x0034 := by
    rcases windowByte_eq_some h with ⟨-, h, -⟩ | ⟨-, h, -⟩ | ⟨-, h, -⟩ <;> omega
  unfold locate
  simp [ha, h]

/-- An aligned 4-byte access to four mapped bytes reaches them (R45). -/
theorem locate_word {ic rc a : Nat} {e : Buf} {i : Nat} (ha : a % 4 = 0)
    (h0 : windowByte ic rc a = some (e, i)) (h1 : windowByte ic rc (a + 1) = some (e, i + 1))
    (h2 : windowByte ic rc (a + 2) = some (e, i + 2)) (h3 : windowByte ic rc (a + 3) = some (e, i + 3)) :
    locate ic rc a 4 = .ok (.word e i) := by
  have hl : ¬ a < 0x0034 := by
    rcases windowByte_eq_some h0 with ⟨-, h, -⟩ | ⟨-, h, -⟩ | ⟨-, h, -⟩ <;> omega
  unfold locate
  simp [hl, ha, h0, h1, h2, h3]

/-- An aligned 4-byte access to the k-th register reaches it (R44). -/
theorem locate_reg {ic rc a k : Nat} {r : Reg} (hr : registerMap[k]? = some r) (ha : a = 4 * k) :
    locate ic rc a 4 = .ok (.reg r) := by
  have hk : k < 13 := (List.getElem?_eq_some_iff.1 hr).1
  subst ha
  have hd : 4 * k / 4 = k := by omega
  have hl : 4 * k < 52 := by omega
  unfold locate
  simp [hl, hd, hr]

/-! ### reads -/

/-- A read of what an access reaches. -/
theorem busRead_of_locate {a : Offset} {n : Nat} {s : State} {tg : Target} {v : Word}
    (h : locate Config.inCap Config.reqCap a.toNat n = .ok tg) (hv : s.readTarget tg = .ok v) :
    busRead a n s = .next (s.pushResult v) := by
  simp [busRead, h, hv]

/-- A read that reaches an unwritten byte. -/
theorem busRead_fault_of_locate {a : Offset} {n : Nat} {s : State} {tg : Target} {f : Fault}
    (h : locate Config.inCap Config.reqCap a.toNat n = .ok tg) (hv : s.readTarget tg = .error f) :
    busRead a n s = .fault f := by
  simp [busRead, h, hv]

/-- A write to what an access reaches. -/
theorem busWrite_of_locate {a : Offset} {n : Nat} {v : Word} {s : State} {tg : Target}
    (h : locate Config.inCap Config.reqCap a.toNat n = .ok tg) : busWrite a n v s = s.writeTarget tg v := by
  simp [busWrite, h]

/-- The next state of a read: its value is shown and nothing else changes (R49). -/
theorem busRead_next {a : Offset} {n : Nat} {s t : State} (h : busRead a n s = .next t) :
    ∃ tg v, locate Config.inCap Config.reqCap a.toNat n = .ok tg ∧ s.readTarget tg = .ok v ∧ t = s.pushResult v := by
  unfold busRead at h
  split at h
  · cases h
  · split at h
    · cases h
    · exact ⟨_, _, ‹_›, ‹_›, by cases h; rfl⟩

/-- A read's value depends on the block's elements only, not on the host's program, index or results. -/
theorem State.readTarget_pushResult (s : State) (tg : Target) (v : Word) :
    (s.pushResult v).readTarget tg = s.readTarget tg := by
  cases tg with
  | reg r => cases r <;> rfl
  | byte e i => cases e <;> rfl
  | word e i => cases e <;> rfl

/-- Moving the host's index changes no value a read returns. -/
theorem State.readTarget_advance (s : State) (tg : Target) : s.advance.readTarget tg = s.readTarget tg := by
  cases tg with
  | reg r => cases r <;> rfl
  | byte e i => cases e <;> rfl
  | word e i => cases e <;> rfl

/-! ### writes -/

/-- The next states of a command word written to CMD (R23, R126). -/
theorem runCommand_next {w : Word} {s t : State} (h : runCommand w s = .next t) :
    (∃ i, decode w = .ok i ∧ exec i s = .next t) ∨ ((∃ e, decode w = .error e) ∧ t = s.setErr 5) := by
  unfold runCommand at h
  split at h
  · exact .inl ⟨_, ‹_›, h⟩
  · exact .inr ⟨⟨_, ‹_›⟩, by cases h; rfl⟩

/-- The next states of a write (R50): a command, one of the four registers the host can write, or one or four bytes of
IN_BUF or REQ_BUF, each below the buffer's capacity. -/
theorem busWrite_next {a : Offset} {n : Nat} {v : Word} {s t : State} (h : busWrite a n v s = .next t) :
    (a = 0 ∧ n = 4 ∧ runCommand v s = .next t) ∨
    (t = s.setInLen (min v.toNat Config.inCap)) ∨
    (t = s.setReqLen (min v.toNat Config.reqCap)) ∨
    (t = s.setTsVal v) ∨
    (t = s.setTsExplicit (v.getLsbD 0)) ∨
    (∃ i, i < Config.inCap ∧ t = s.writeInBuf i (byteOf v 0)) ∨
    (∃ i, i < Config.reqCap ∧ t = s.writeReqBuf i (byteOf v 0)) ∨
    (∃ i, i + 3 < Config.inCap ∧ t = (((s.writeInBuf i (byteOf v 0)).writeInBuf (i + 1) (byteOf v 1)).writeInBuf
      (i + 2) (byteOf v 2)).writeInBuf (i + 3) (byteOf v 3)) ∨
    (∃ i, i + 3 < Config.reqCap ∧ t = (((s.writeReqBuf i (byteOf v 0)).writeReqBuf (i + 1) (byteOf v 1)).writeReqBuf
      (i + 2) (byteOf v 2)).writeReqBuf (i + 3) (byteOf v 3)) := by
  unfold busWrite at h
  split at h
  · cases h
  · rename_i tg htg
    rcases locate_ok htg with ⟨r, rfl, hn, ha, hm, hr⟩ | ⟨e, i, rfl, -, -, hw⟩ | ⟨e, i, rfl, -, -, -, -, -, -, hw⟩
    · cases r with
      | cmd =>
        refine .inl ⟨?_, hn, h⟩
        have hz : ∀ k : Nat, k < 13 → registerMap[k]? = some .cmd → k = 0 := by decide
        have := hz _ (by omega) hr
        apply BitVec.eq_of_toNat_eq
        simp
        omega
      | inLen => exact .inr (.inl (by cases h; rfl))
      | reqLen => exact .inr (.inr (.inl (by cases h; rfl)))
      | tsVal => exact .inr (.inr (.inr (.inl (by cases h; rfl))))
      | tsCtrl => exact .inr (.inr (.inr (.inr (.inl (by cases h; rfl)))))
      | status | csum | outLen | hdrPlen | hdrType | hdrRidx | hdrQidx | hdrSerial => cases h
    · rcases windowByte_eq_some hw with ⟨rfl, -, hi⟩ | ⟨rfl, -, -⟩ | ⟨rfl, -, hi⟩
      · exact .inr (.inr (.inr (.inr (.inr (.inr (.inl ⟨i, hi, by cases h; rfl⟩))))))
      · cases h
      · exact .inr (.inr (.inr (.inr (.inr (.inl ⟨i, hi, by cases h; rfl⟩)))))
    · rcases windowByte_eq_some hw with ⟨rfl, -, hi⟩ | ⟨rfl, -, -⟩ | ⟨rfl, -, hi⟩
      · exact .inr (.inr (.inr (.inr (.inr (.inr (.inr (.inr ⟨i, hi, by cases h; rfl⟩)))))))
      · cases h
      · exact .inr (.inr (.inr (.inr (.inr (.inr (.inr (.inl ⟨i, hi, by cases h; rfl⟩)))))))

end Sys2Proof.Machine
end

