-- ==== Sys2Proof/Laws/Checksum.lean ====
section
/-! SUPPORT. The laws of the checksum arithmetic (41_checksum R94, R95, R101). -/

namespace Sys2Proof.Machine

/-- The mask keeps the value mod 256. -/
theorem mask8_toNat (v : Nat) : (mask8 v).toNat = v % 256 := by simp [mask8]

/-- The mask of a byte is the byte: the final mask of R95 is the identity. -/
@[simp] theorem mask8_byte (b : Byte) : mask8 b.toNat = b := by
  apply BitVec.eq_of_toNat_eq
  have := b.isLt
  rw [mask8_toNat]
  omega

/-- One step of the loop, in integers (R101). -/
theorem csumStep_toNat (acc b : Byte) : (csumStep acc b).toNat = (acc.toNat + b.toNat) % 256 := mask8_toNat _

@[simp] theorem csumFrom_nil (acc : Byte) : csumFrom acc [] = acc := mask8_byte acc

@[simp] theorem csumFrom_cons (acc b : Byte) (bs : List Byte) :
    csumFrom acc (b :: bs) = csumFrom (csumStep acc b) bs := rfl

/-- The whole loop, in integers. -/
theorem csumFrom_toNat (acc : Byte) (bs : List Byte) :
    (csumFrom acc bs).toNat = (acc.toNat + (bs.map BitVec.toNat).sum) % 256 := by
  induction bs generalizing acc with
  | nil =>
    have := acc.isLt
    simp only [csumFrom_nil, List.map_nil, List.sum_nil]
    omega
  | cons b bs ih =>
    rw [csumFrom_cons, ih, csumStep_toNat, List.map_cons, List.sum_cons]
    omega

end Sys2Proof.Machine
end

