-- ==== Sys2Proof/Laws/PerInstr.lean ====
section
/-! SUPPORT. The family EncodeLegal: the word of every command is legal by 30_encoding R65, and holds its operation code in
the low byte and its immediate, where it has one, in the next (R62 to R64). -/

namespace Sys2Proof.Laws.EncodeLegal

/-- The operation code of a command (R63). -/
def opcode : Instr → Byte
  | .parseHdr => 0x01
  | .csumClr => 0x02
  | .csumAdd _ => 0x03
  | .csumIn => 0x04
  | .buildRsp => 0x05

/-- The immediate of a command; 0 where it has none (R64). -/
def immediate : Instr → Byte
  | .parseHdr => 0
  | .csumClr => 0
  | .csumAdd imm => imm
  | .csumIn => 0
  | .buildRsp => 0

/-- The word of i is legal and has i's fields. -/
def Statement (i : Instr) : Prop :=
  legalWord (encode i) = true ∧ fieldOp (encode i) = opcode i ∧ fieldImm8 (encode i) = immediate i ∧
    fieldRsv (encode i) = 0

theorem parseHdr : Statement .parseHdr := by unfold Statement; decide

theorem csumClr : Statement .csumClr := by unfold Statement; decide

theorem csumAdd (imm : Byte) : Statement (.csumAdd imm) := by
  revert imm
  unfold Statement
  decide

theorem csumIn : Statement .csumIn := by unfold Statement; decide

theorem buildRsp : Statement .buildRsp := by unfold Statement; decide

end Sys2Proof.Laws.EncodeLegal
end

