-- ==== Sys2Proof/Laws/Step.lean ====
section
/-! SUPPORT. What one step can do, said once. -/

namespace Sys2Proof.Machine

open Sys2Proof.Safety

/-- A step of an unmarked run performs the input it faces, with the host's index moved past it (R19). -/
theorem step_of_faces {s : State} {x : Input} (h : Faces s x) : step s = perform x s.advance := by
  obtain ⟨⟨hf, hr⟩, hx⟩ := h
  simp [step, hf, hr, hx]

/-- An input leaves the host's list, its index and the marks alone; only a read adds to the results. -/
theorem perform_keeps_host {x : Input} {s t : State} (h : perform x s = .next t) :
    t.program = s.program ∧ t.pc = s.pc ∧ t.faultMark = s.faultMark ∧ t.refusedMark = s.refusedMark := by
  match x with
  | .reset =>
    cases h
    exact ⟨rfl, rfl, rfl, rfl⟩
  | .access (.read a n) =>
    obtain ⟨tg, v, -, -, rfl⟩ := busRead_next h
    exact ⟨rfl, rfl, rfl, rfl⟩
  | .access (.write a n v) =>
    rcases busWrite_next h with ⟨-, -, h⟩ | rfl | rfl | rfl | rfl | ⟨i, -, rfl⟩ | ⟨i, -, rfl⟩ | ⟨i, -, rfl⟩ | ⟨i, -, rfl⟩
    · rcases runCommand_next h with ⟨i, -, h⟩ | ⟨-, rfl⟩
      · obtain ⟨h1, h2, -, h3, h4⟩ := exec_keeps_host h
        exact ⟨h1, h2, h3, h4⟩
      · exact ⟨rfl, rfl, rfl, rfl⟩
    all_goals exact ⟨rfl, rfl, rfl, rfl⟩

/-- The next states of a step: the block is idle (R142), or it has performed the input it faced. -/
theorem step_next {s t : State} (h : step s = .next t) :
    Unmarked s ∧ ((s.program[s.pc]? = none ∧ t = s) ∨ ∃ x, Faces s x ∧ perform x s.advance = .next t) := by
  unfold step at h
  split at h
  · cases h
  · split at h
    · cases h
    · have hu : Unmarked s := ⟨‹_›, ‹_›⟩
      split at h
      · exact ⟨hu, .inl ⟨‹_›, by cases h; rfl⟩⟩
      · exact ⟨hu, .inr ⟨_, ⟨hu, ‹_›⟩, h⟩⟩

end Sys2Proof.Machine
end

