-- ==== Sys2Proof/Tests/Slice0.lean ====
section
/-! SUPPORT. Tests on values of the spec (95_test_vectors, or worked by hand from a rule), and for every obligation with
hypotheses a witness: a state and operands that meet them together. -/

namespace Sys2Proof.Tests

open Sys2Proof.Machine Sys2Proof.Safety

/-! ### helpers -/

/-- The outcome is a next state with a property. -/
def nextIs (o : Host.Outcome State Fault Refusal) (p : State → Bool) : Bool :=
  match o with
  | .next t => p t
  | _ => false

/-- The outcome is this fault. -/
def faultIs (o : Host.Outcome State Fault Refusal) (f : Fault) : Bool :=
  match o with
  | .fault g => g == f
  | _ => false

/-- A state whose next input is x. -/
def facing (x : Input) (s : State) : State := { s with program := [x], pc := 0 }

/-- IN_BUF from reset, holding these bytes from index 0 on, and IN_LEN their number. -/
def loaded (bs : List Byte) : State :=
  { State.reset with inBuf := bs.zipIdx.map fun p => (p.2, p.1), inLen := bs.length }

/-- Vector H1's frame. -/
def frameH1 : List Byte := [0xA5, 0x0A, 0x00, 0x10, 0x31, 0x07, 0x05, 0x2A, 0x00, 0x00, 0x00]

/-- Vector B1's inputs to BUILD_RSP. -/
def readyB1 : State :=
  { State.reset with
    hdrPlen := 10, hdrType := 0x31, hdrQidx := 0x05, hdrSerial := 0x2A, hdrValid := true,
    reqBuf := [(0, 0x07)], reqLen := 1, tsVal := 1700000000, tsExplicit := true }

/-! ### well-formedness: one ill-formed word for each check (R65) -/

theorem test_legal_refuses_reserved_op : legalWord 0x00000006 = false ∧ opSelects 0x00000006 = false := by decide

theorem test_legal_refuses_reserved_bits : legalWord 0x00010003 = false ∧ rsvClear 0x00010003 = false := by decide

theorem test_legal_refuses_stray_immediate : legalWord 0x00000101 = false ∧ immAllowed 0x00000101 = false := by decide

/-! ### decoding: the words of R63, bit 31 first -/

theorem test_decode_parseHdr : decode 0b00000000000000000000000000000001#32 = .ok .parseHdr := by decide

theorem test_decode_csumClr : decode 0b00000000000000000000000000000010#32 = .ok .csumClr := by decide

theorem test_decode_csumAdd : decode 0b00000000000000001011110000000011#32 = .ok (.csumAdd 0xBC) := by decide

theorem test_decode_csumIn : decode 0b00000000000000000000000000000100#32 = .ok .csumIn := by decide

theorem test_decode_buildRsp : decode 0b00000000000000000000000000000101#32 = .ok .buildRsp := by decide

theorem test_decode_refuses_by_name :
    decode 0x00000000 = .error .reservedOp ∧ decode 0x00000101 = .error .strayImmediate ∧
      decode 0x80000005 = .error .reservedBits := by decide

theorem test_encode_csumAdd : encode (.csumAdd 0xFF) = 0x0000FF03 := by decide

theorem test_decodeTableWord : decodeTableWord 32 0x1203 = some (.csumAdd 0x12) ∧ decodeTableWord 32 6 = none := by decide

/-! ### PARSE_HDR (95 section 2.1) -/

/-- H3: the byte order of the u16 and the u32. -/
theorem test_parseHdr_byte_order :
    nextIs (exec .parseHdr (loaded [0x00, 0x34, 0x12, 0x00, 0xAB, 0xCD, 0xEF, 0x78, 0x56, 0x34, 0x12])) (fun t =>
      t.hdrPlen == 0x1234 && t.hdrType == 0xAB && t.hdrRidx == 0xCD && t.hdrQidx == 0xEF &&
      t.hdrSerial == 0x12345678 && t.hdrValid && t.err == 0) = true := by decide

/-- H4: one byte short. -/
theorem test_parseHdr_one_short :
    nextIs (exec .parseHdr (loaded (frameH1.take 10))) (fun t => t.err == 1 && !t.hdrValid && t.hdrType == 0) = true := by
  decide

/-! ### the checksum commands (95 section 2.2) -/

/-- C8: clear. -/
theorem test_csumClr : nextIs (exec .csumClr { State.reset with csumAcc := 0x5F }) (fun t => t.csumAcc == 0x00) = true := by
  decide

/-- C7: the carry is discarded. -/
theorem test_csumAdd_wraps :
    nextIs (exec (.csumAdd 0x03) { State.reset with csumAcc := 0xFE }) (fun t => t.csumAcc == 0x01 && t.err == 0) = true := by
  decide

/-- C10: CSUM_IN accumulates onto a nonzero start. -/
theorem test_csumIn_accumulates :
    nextIs (exec .csumIn { loaded [0xF0] with csumAcc := 0x10 }) (fun t => t.csumAcc == 0x00) = true := by decide

/-- C14: byte 2 is unwritten. -/
theorem test_csumIn_unwritten :
    faultIs (exec .csumIn { loaded [0x01, 0x02] with inLen := 3 }) (.uninit .inBuf 2) = true := by decide

/-! ### BUILD_RSP (95 section 2.3) -/

/-- B1. -/
theorem test_buildRsp_frame :
    nextIs (exec .buildRsp readyB1) (fun t => t.outLen == 23 && t.outBuf.toList ==
      [0xA5, 0x0A, 0x00, 0x00, 0x01, 0x05, 0x05, 0x2A, 0x00, 0x00, 0x00, 0x07, 0x01, 0x00, 0xF1, 0x53, 0x65,
       0xAA, 0xAA, 0x00, 0x00, 0x44, 0x15]) = true := by decide

/-- B16: the type check comes before the read of the unwritten echo byte. -/
theorem test_buildRsp_checks_before_read :
    nextIs (exec .buildRsp { readyB1 with hdrType := 0x2F, reqBuf := [] }) (fun t =>
      t.err == 4 && t.outLen == 0 && t.nowDraws == 0) = true := by decide

/-! ### host accesses (95 section 2.5), with IN_CAP = 16 and REQ_CAP = 1 where a capacity matters -/

/-- M2. -/
theorem test_bus_word_read_is_little_endian :
    (loaded [0x11, 0x22, 0x33, 0x44]).readTarget (.word .inBuf 0) = .ok 0x44332211 := by decide

/-- M7, M9, M10, M12, and an access of two bytes. -/
theorem test_bus_refusals :
    locate 16 1 0x1002 4 = .error .misalignedWindow ∧ locate 16 1 0x0214 4 = .error .pastCapacity ∧
      locate 16 1 0x0040 1 = .error .reservedOffset ∧ locate 16 1 0x0004 1 = .error .narrowRegister ∧
      locate 16 1 0x1000 2 = .error .badWidth := by decide

/-- The capacities bound the windows: the last byte of each and the first one past it. -/
theorem test_bus_window_ends :
    locate 16 1 0x100F 1 = .ok (.byte .inBuf 15) ∧ locate 16 1 0x1010 1 = .error .reservedOffset ∧
      locate 16 1 0x0100 1 = .ok (.byte .reqBuf 0) ∧ locate 16 1 0x0101 1 = .error .reservedOffset ∧
      locate 16 1 0x0216 1 = .ok (.byte .outBuf 22) ∧ locate 16 1 0x0217 1 = .error .reservedOffset := by decide

/-- M8. -/
theorem test_bus_status_is_read_only (s : State) : busWrite 0x0004 4 0 s = .refused .readOnly := rfl

/-- M4, with REQ_CAP = 1. -/
theorem test_clamp : clampLen 1 5 = 1 ∧ clampLen 16 0xFFFFFFFF = 16 := by decide

/-- The STATUS of P3: ERR 5 with a header. -/
theorem test_status_word : ({ State.reset with err := 5, hdrValid := true } : State).statusWord = 0x00000105 := by decide

/-- A run from reset is idle, and the first command after reset runs (B10: NO_HEADER). -/
theorem test_first_command_after_reset :
    nextIs (step (State.reset.withFetchWord 32 5)) (fun t => t.err == 3) = true ∧
      nextIs (core.step core.reset) (fun t => t == State.reset) = true := by decide

/-! ### program syntax (R74 to R76, and P1 to P3) -/

theorem test_assemble_command : assembleLine "CSUM_ADD 0xBC      ; the complement" = some [wr32Input 0x0000 0x0000BC03] := by
  decide

theorem test_assemble_rejects_large_immediate : assembleLine "CSUM_ADD 256" = none := by decide

theorem test_assemble_program :
    assemble ["LOAD_REQ 0x07", "SET_TS 1700000000", "", "RD32 OUT_BUF+0x10", "RD8 IN_BUF+1"] =
      some [wr8Input 0x0100 0x07, wr32Input 0x000C 1, wr32Input 0x0010 0x6553F100, wr32Input 0x0014 1,
        .access (.read 0x0210 4), .access (.read 0x1001 1)] := by decide

theorem test_assemble_empty_lists : assembleLine "LOAD_IN" = some [wr32Input 0x0008 0] ∧ assembleLine "CSUM_BYTES" = some [] := by
  decide

/-! ### witnesses: encoding and the step -/

theorem witness_StepRunsDecodedCommand :
    Faces (facing (.access (.write 0 4 0x0000FF03)) State.reset) (.access (.write 0 4 0x0000FF03)) ∧
      decode 0x0000FF03 = .ok (.csumAdd 0xFF) ∧
      Faces (facing (.access (.read 0 4)) State.reset) (.access (.read 0 4)) := by decide

theorem witness_FetchWordRunsTheTableCommand :
    Unmarked State.reset ∧ decodeTableWord 32 5 = some .buildRsp := by decide

theorem witness_IllegalCommandChangesOnlyErr :
    Faces (facing (.access (.write 0 4 0x00000101)) State.reset) (.access (.write 0 4 0x00000101)) ∧
      ∀ i, decode 0x00000101 ≠ .ok i := by
  refine ⟨by decide, fun i h => ?_⟩
  rw [show decode 0x00000101 = .error .strayImmediate by decide] at h
  cases h

theorem witness_LegalWordsAreTheCommands : legalWord 0x00000000 = false := by decide

theorem witness_IndexAdvancesByOnePerAccess :
    (∃ s t x, Faces s x ∧ step s = .next t) ∧ Unmarked State.reset ∧ State.reset.program.length ≤ State.reset.pc :=
  ⟨⟨facing .reset readyB1, _, .reset, by decide, rfl⟩, by decide⟩

theorem witness_MarksAreNeverCleared :
    ¬ Unmarked { State.reset with faultMark := some (.uninit .inBuf 0) } ∧ (∃ t, step State.reset = .next t) ∧
      ({ State.reset with refusedMark := some .readOnly } : State).faultMark = none :=
  ⟨by decide, ⟨_, rfl⟩, rfl⟩

/-! ### witnesses: host accesses, at the edges of the register region and of the windows -/

theorem witness_RefusedExactlyWhenNotAllowed :
    Faces (facing (.access (.read 0x0030 4)) State.reset) (.access (.read 0x0030 4)) ∧ LegalAt 0x0030 4 ∧
      Faces (facing (.access (.read 0x0034 4)) State.reset) (.access (.read 0x0034 4)) ∧ ¬ LegalAt 0x0034 4 ∧
      Faces (facing (.access (.write 0x0014 4 1)) State.reset) (.access (.write 0x0014 4 1)) ∧ HostWritable 0x0014 ∧
      Faces (facing (.access (.write 0x0216 1 1)) State.reset) (.access (.write 0x0216 1 1)) ∧ LegalAt 0x0216 1 ∧
      ¬ HostWritable 0x0216 := by
  have hr := Config.reqCap_le
  refine ⟨by decide, .inl (by decide), by decide, ?_, by decide, .inl (by decide), by decide,
    .inr (.inl ⟨rfl, .outBuf, by decide, by decide⟩), ?_⟩
  · rintro (h | ⟨h, -⟩ | ⟨-, -, e, h⟩)
    · omega
    · omega
    · have := (h 0 (by omega)).1
      cases e <;> simp only [windowBase] at this <;> omega
  · rintro (h | h | h)
    · revert h
      decide
    · have := h.2
      simp only [windowBase, windowSize] at this
      omega
    · have := h.1
      simp only [windowBase] at this
      omega

theorem witness_ReadChangesNoState :
    ∃ s t, Faces s (.access (.read 0x0004 4)) ∧ step s = .next t ∧ Faces t (.access (.read 0x0004 4)) :=
  ⟨{ readyB1 with program := [.access (.read 0x0004 4), .access (.read 0x0004 4)] }, _, by decide, rfl, by decide⟩

theorem witness_RegisterReadValues :
    Faces (facing (.access (.read (BitVec.ofNat 13 (4 * 12)) 4)) readyB1) (.access (.read (BitVec.ofNat 13 (4 * 12)) 4)) ∧
      Faces (facing (.access (.read (BitVec.ofNat 13 (4 * 1)) 4)) readyB1) (.access (.read (BitVec.ofNat 13 (4 * 1)) 4)) := by
  decide

theorem witness_RegisterWriteEffects :
    Faces (facing (.access (.write 0x0008 4 0xFFFFFFFF)) State.reset) (.access (.write 0x0008 4 0xFFFFFFFF)) ∧
      Faces (facing (.access (.write 0x000C 4 0)) State.reset) (.access (.write 0x000C 4 0)) ∧
      Faces (facing (.access (.write 0x0010 4 0xFFFFFFFF)) State.reset) (.access (.write 0x0010 4 0xFFFFFFFF)) ∧
      Faces (facing (.access (.write 0x0014 4 0xFFFFFFFE)) readyB1) (.access (.write 0x0014 4 0xFFFFFFFE)) := by decide

theorem witness_WindowReadsAreLittleEndian :
    (0x0216#13).toNat = windowBase .outBuf + 22 ∧ 22 < windowSize .outBuf ∧ content State.reset .outBuf 22 = some 0 ∧
      Faces (facing (.access (.read 0x0216 1)) State.reset) (.access (.read 0x0216 1)) ∧
      (0x0210#13).toNat = windowBase .outBuf + 16 ∧ 16 + 3 < windowSize .outBuf ∧
      content State.reset .outBuf 16 = some 0 ∧ content State.reset .outBuf 17 = some 0 ∧
      content State.reset .outBuf 18 = some 0 ∧ content State.reset .outBuf 19 = some 0 ∧
      Faces (facing (.access (.read 0x0210 4)) State.reset) (.access (.read 0x0210 4)) := by decide

theorem witness_ReadOfUnwrittenByteFaults :
    (BitVec.ofNat 13 (0x1000 + (Config.inCap - 1))).toNat = windowBase .inBuf + (Config.inCap - 1) ∧
      Config.inCap - 1 < windowSize .inBuf ∧ content State.reset .inBuf (Config.inCap - 1) = none ∧
      (∀ a, Faces (facing (.access (.read a 1)) State.reset) (.access (.read a 1))) ∧
      (0x1004#13).toNat = windowBase .inBuf + 4 ∧ 4 + 3 < windowSize .inBuf ∧
      content (loaded [1, 2, 3, 4, 5, 6, 7]) .inBuf (4 + 3) = none ∧
      Faces (facing (.access (.read 0x1004 4)) (loaded [1, 2, 3, 4, 5, 6, 7])) (.access (.read 0x1004 4)) := by
  have h1 := Config.inCap_ge
  have h2 := Config.inCap_le
  refine ⟨?_, ?_, rfl, fun a => ⟨⟨rfl, rfl⟩, rfl⟩, by decide, ?_, by decide, by decide⟩
  · rw [BitVec.toNat_ofNat]
    simp only [windowBase]
    omega
  · simp only [windowSize]
    omega
  · simp only [windowSize]
    omega

/-- The fourth clause asks for a REQ_BUF of at least four bytes: REQ_CAP is open (R5) and may be 1, so its witness is
conditional on that. -/
theorem witness_WindowWritesStoreTheirBytes :
    (0x100A#13).toNat = 0x1000 + 10 ∧ 10 < Config.inCap ∧
      Faces (facing (.access (.write 0x100A 1 0xFF)) State.reset) (.access (.write 0x100A 1 0xFF)) ∧
      (0x0100#13).toNat = 0x0100 + 0 ∧ 0 < Config.reqCap ∧
      Faces (facing (.access (.write 0x0100 1 0xFF)) State.reset) (.access (.write 0x0100 1 0xFF)) ∧
      (0x1004#13).toNat = 0x1000 + 4 ∧ 4 + 3 < Config.inCap ∧
      Faces (facing (.access (.write 0x1004 4 0x44332211)) State.reset) (.access (.write 0x1004 4 0x44332211)) ∧
      (4 ≤ Config.reqCap → 0 + 3 < Config.reqCap ∧
        Faces (facing (.access (.write 0x0100 4 0x44332211)) State.reset) (.access (.write 0x0100 4 0x44332211))) := by
  have h1 := Config.inCap_ge
  have h2 := Config.reqCap_ge
  exact ⟨by decide, by omega, by decide, by decide, by omega, by decide, by decide, by omega, by decide,
    fun h => ⟨by omega, by decide⟩⟩

theorem witness_CanonicalMemoriesReadingAlikeAreEqual :
    Memory.wf [(0, 1), (3, 2)] ∧ Memory.wf (Memory.write [(3, 2)] 0 1) ∧
      ∀ i, Memory.read [(0, 1), (3, 2)] i = (Memory.write [(3, 2)] 0 1).read i :=
  ⟨by decide, by decide, fun _ => rfl⟩

/-! ### witnesses: PARSE_HDR -/

theorem witness_ParseHdrReadsItsFieldsAtFixedOffsets :
    11 ≤ (loaded frameH1).inLen ∧ ∀ k < 11, (loaded frameH1).inBuf.read k = frameH1[k]? := by decide

theorem witness_ParseHdrFormatErrorClearsTheHeader :
    (loaded (frameH1.take 10)).inLen < 11 ∧ (∃ t, exec .parseHdr (loaded (frameH1.take 10)) = .next t) ∧
      ¬ (loaded frameH1).inLen < 11 ∧ ∃ t, exec .parseHdr (loaded frameH1) = .next t :=
  ⟨by decide, ⟨_, rfl⟩, by decide, _, rfl⟩

theorem witness_ParseHdrFrame : ∃ t, exec .parseHdr (loaded frameH1) = .next t := ⟨_, rfl⟩

theorem witness_ParseHdrIgnoresReservedAndLaterBytes :
    ∀ k ∈ [1, 2, 4, 5, 6, 7, 8, 9, 10],
      Memory.read [(1, 0x0A), (2, 0x00), (4, 0x31), (5, 0x07), (6, 0x05), (7, 0x2A), (8, 0), (9, 0), (10, 0), (11, 0x99)] k =
        (loaded frameH1).inBuf.read k := by decide

theorem witness_ParseHdrFaultsOnUnwrittenFieldBytes :
    exec .parseHdr { loaded (frameH1.take 10) with inLen := 11 } = .fault (.uninit .inBuf 10) := rfl

theorem witness_ParseHdrTwiceIsParseHdr : ∃ t, exec .parseHdr (loaded frameH1) = .next t := ⟨_, rfl⟩

/-! ### witnesses: the checksum commands -/

theorem witness_CsumClrClears : (0x00000102#32).extractLsb' 0 8 = 0x02#8 ∧ (0x00000102 : Word) ≠ 0x00000002 := by decide

theorem witness_CsumAddAddsItsImmediate :
    (0x00010003#32).extractLsb' 0 8 = 0x03#8 ∧ (0x00010003#32).extractLsb' 16 16 ≠ 0#16 := by decide

theorem witness_CsumInAddsTheBuffer :
    frameH1.length = (loaded frameH1).inLen ∧
      (∀ k < (loaded frameH1).inLen, (loaded frameH1).inBuf.read k = frameH1[k]?) ∧
      (∃ k < ({ loaded [1, 2] with inLen := 3 } : State).inLen,
        ({ loaded [1, 2] with inLen := 3 } : State).inBuf.read k = none) :=
  ⟨by decide, by decide, 2, by decide, by decide⟩

theorem witness_ChecksumCommandsFrame :
    (∃ t, exec .csumClr readyB1 = .next t) ∧ (∃ t, exec (.csumAdd 0xFF) readyB1 = .next t) ∧
      ∃ t, exec .csumIn (loaded frameH1) = .next t :=
  ⟨⟨_, rfl⟩, ⟨_, rfl⟩, _, rfl⟩

theorem witness_ChecksumLaws : [0x12#8, 0xF0#8].Perm [0xF0#8, 0x12#8] := by decide

theorem witness_ChecksumCommandsCompose :
    [0x80#8, 0x80#8].length = (loaded [0x80, 0x80]).inLen ∧
      ∀ k < (loaded [0x80, 0x80]).inLen, (loaded [0x80, 0x80]).inBuf.read k = [0x80#8, 0x80#8][k]? := by decide

/-! ### witnesses: BUILD_RSP -/

theorem witness_BuildRspBuildsTheFrame :
    readyB1.hdrValid = true ∧ 1 ≤ readyB1.reqLen ∧ 0x30 ≤ readyB1.hdrType.toNat ∧ readyB1.reqBuf.read 0 = some 0x07 ∧
      (0x6553F100 : Word) = (if readyB1.tsExplicit then readyB1.tsVal else Config.now readyB1.nowDraws) := by
  exact ⟨rfl, by decide, by decide, by decide, rfl⟩

theorem witness_BuildRspErrorsInOrder :
    State.reset.hdrValid = false ∧ ({ readyB1 with reqLen := 0 } : State).hdrValid = true ∧
      1 ≤ ({ readyB1 with hdrType := 0x2F } : State).reqLen ∧
      ({ readyB1 with hdrType := 0x2F } : State).hdrType.toNat < 0x30 := by decide

theorem witness_ResponseTypeIsExact :
    (∃ t, exec .buildRsp { readyB1 with hdrType := 0x30 } = .next t) ∧
      (∃ t, exec .buildRsp { readyB1 with hdrType := 0x2F } = .next t) ∧ readyB1.hdrValid = true ∧ 1 ≤ readyB1.reqLen :=
  ⟨⟨_, rfl⟩, ⟨_, rfl⟩, by decide⟩

theorem witness_TimeIsSampledOnceAfterTheChecks :
    (∃ t, exec .buildRsp { readyB1 with tsExplicit := false } = .next t ∧ t.err = 0) ∧
      (∃ t, exec .buildRsp readyB1 = .next t ∧ t.err = 0) ∧ ∃ t, exec .buildRsp State.reset = .next t ∧ t.err ≠ 0 :=
  ⟨⟨_, rfl, rfl⟩, ⟨_, rfl, rfl⟩, _, rfl, by decide⟩

theorem witness_BuildRspFrame : ∃ t, exec .buildRsp readyB1 = .next t := ⟨_, rfl⟩

theorem witness_BuildRspReadsOnlyItsInputs :
    Memory.read [(0, 0x07), (1, 0xEE), (2, 0xEE)] 0 = readyB1.reqBuf.read 0 := by decide

theorem witness_BuildRspFaultsOnUnwrittenEcho :
    exec .buildRsp { readyB1 with reqBuf := [] } = .fault (.uninit .reqBuf 0) := rfl

theorem witness_AfterBuildRspOutBufIsAFrame : ∃ t, exec .buildRsp readyB1 = .next t ∧ t.outLen = 23 := ⟨_, rfl, rfl⟩

theorem witness_BuildRspTwiceGivesTheSameFrame :
    readyB1.tsExplicit = true ∧ ∃ t, exec .buildRsp readyB1 = .next t := ⟨rfl, _, rfl⟩

/-! ### witnesses: errors and the whole machine -/

theorem witness_ErrorCodesAndTheirCauses :
    (∃ t, runCommand 0x00000001 (loaded []) = .next t ∧ t.err = 1) ∧
      (∃ t, runCommand 0x00000005 { readyB1 with reqLen := 0 } = .next t ∧ t.err = 2) ∧
      (∃ t, runCommand 0x00000005 State.reset = .next t ∧ t.err = 3) ∧
      (∃ t, runCommand 0x00000005 { readyB1 with hdrType := 0x2F } = .next t ∧ t.err = 4) ∧
      ∃ t, runCommand 0x00000006 State.reset = .next t ∧ t.err = 5 :=
  ⟨⟨_, rfl, rfl⟩, ⟨_, rfl, rfl⟩, ⟨_, rfl, rfl⟩, ⟨_, rfl, rfl⟩, _, rfl, rfl⟩

theorem witness_ErrReportsTheMostRecentCommandOnly :
    (∃ t, exec .parseHdr (loaded frameH1) = .next t) ∧
      ¬ (Instr.parseHdr = .parseHdr ∧ (loaded frameH1).inLen < 11) ∧
      ¬ (Instr.parseHdr = .buildRsp ∧ ((loaded frameH1).hdrValid = false ∨ (loaded frameH1).reqLen = 0 ∨
        (loaded frameH1).hdrType.toNat < 0x30)) :=
  ⟨⟨_, rfl⟩, by decide, by decide⟩

theorem witness_FaultsComeAfterTheErrorChecks :
    ∃ f, exec .csumIn { loaded [1, 2] with inLen := 3 } = .fault f := ⟨_, rfl⟩

theorem witness_OnlyParseHdrWritesTheHeader :
    (∃ t, exec .parseHdr (loaded frameH1) = .next t) ∧ 11 ≤ (loaded frameH1).inLen ∧
      (∃ t, exec .parseHdr (loaded []) = .next t) ∧ (loaded []).inLen < 11 ∧
      (∃ t, step (facing (.access (.write 0 4 5)) readyB1) = .next t) ∧
      ¬ Faces (facing (.access (.write 0 4 5)) readyB1) (.access (.write 0 4 0x00000001)) ∧
      ¬ Faces (facing (.access (.write 0 4 5)) readyB1) .reset :=
  ⟨⟨_, rfl⟩, by decide, ⟨_, rfl⟩, by decide, ⟨_, rfl⟩, by decide, by decide⟩

theorem witness_ResultsLastUntilTheirNextCommand :
    (∃ t, step (facing (.access (.write 0x0010 4 7)) readyB1) = .next t) ∧
      ¬ Faces (facing (.access (.write 0x0010 4 7)) readyB1) .reset ∧
      ∀ w, ¬ Faces (facing (.access (.write 0x0010 4 7)) readyB1) (.access (.write 0 4 w)) := by
  refine ⟨⟨_, rfl⟩, by decide, fun w h => ?_⟩
  have := h.2
  simp [facing] at this

theorem witness_NoCommandWritesTheHostsInputs : ∃ t, runCommand 0x00000004 (loaded frameH1) = .next t := ⟨_, rfl⟩

theorem witness_WrittenBytesStayWrittenUntilReset :
    (∃ t, step (facing (.access (.write 0 4 5)) readyB1) = .next t) ∧
      ¬ Faces (facing (.access (.write 0 4 5)) readyB1) .reset ∧
      content (facing (.access (.write 0 4 5)) readyB1) .reqBuf 0 ≠ none :=
  ⟨⟨_, rfl⟩, by decide, by decide⟩

theorem witness_ResetGivesEveryElementItsValue : Faces (facing .reset readyB1) .reset := by decide

/-- A state with a header and a payload that meets the invariant and makes a step. -/
theorem witness_StepKeepsTheInvariant :
    Inv (facing (.access (.write 0 4 5)) readyB1) ∧ ∃ t, step (facing (.access (.write 0 4 5)) readyB1) = .next t := by
  refine ⟨⟨by decide, ?_, by decide, ?_, Nat.zero_le _, Config.reqCap_ge, .inl (by decide), ?_, by decide, by decide⟩, _, rfl⟩
  · simp [facing, readyB1, State.reset]
  · have := Config.reqCap_ge
    simp [facing, readyB1]
    omega
  · simp [facing, readyB1]

theorem witness_StatementsExpandToTheirAccesses : frameH1.length ≤ 4096 ∧ frameH1.length ≤ 256 := by decide

theorem witness_LoadInLoadsItsBytes : frameH1.length ≤ Config.inCap := Config.inCap_ge

end Sys2Proof.Tests
end

section
/-! SUPPORT. The decoder as a partial inverse of the encoder: a word that decodes to a command is that command's word
(30_encoding R61 to R65). -/

namespace Sys2Proof

/-- A word is its three fields put together (R62). -/
theorem append_fields (w : Word) : (fieldRsv w ++ fieldImm8 w ++ fieldOp w : BitVec (16 + 8 + 8)) = w := by
  unfold fieldRsv fieldImm8 fieldOp
  rw [BitVec.extractLsb'_append_extractLsb'_eq_extractLsb' (start₂ := 16) (start₁ := 8) (len₁ := 8) rfl,
    BitVec.extractLsb'_append_extractLsb'_eq_extractLsb' (start₂ := 8) (start₁ := 0) (len₁ := 8) rfl]
  exact BitVec.extractLsb'_eq_self

/-- A word whose reserved bits are clear is in format C (R62). -/
theorem formatC_fields {w : Word} (h : fieldRsv w = 0) : formatC (fieldImm8 w) (fieldOp w) = w := by
  conv_rhs => rw [← append_fields w, h]
  rfl

/-- A command without an operand is decoded only where IMM8 is zero (R65). -/
theorem decodePlain_eq_ok {w : Word} {i j : Instr} (h : decodePlain w i = .ok j) : fieldImm8 w = 0 ∧ i = j := by
  unfold decodePlain at h
  split at h
  · exact ⟨‹_›, by cases h; rfl⟩
  · cases h

/-- Where such a command is decoded, its operation code alone makes the whole word (R62, R65). -/
theorem encode_of_decodePlain {w : Word} {op : Byte} {i j : Instr} (hrsv : fieldRsv w = 0) (hop : fieldOp w = op)
    (henc : encode i = formatC 0 op) (h : decodePlain w i = .ok j) : encode j = w := by
  obtain ⟨himm, rfl⟩ := decodePlain_eq_ok h
  rw [henc, ← himm, ← hop, formatC_fields hrsv]

/-- A word that decodes to a command is the word the encoder gives that command (R62, R63). -/
theorem encode_of_decode {w : Word} {i : Instr} (h : decode w = .ok i) : encode i = w := by
  unfold decode at h
  split at h
  · cases h
  have hrsv : fieldRsv w = 0 := not_not.1 ‹_›
  split at h
  · exact encode_of_decodePlain hrsv ‹_› rfl h
  split at h
  · exact encode_of_decodePlain hrsv ‹_› rfl h
  split at h
  next hop =>
    cases h
    rw [encode, ← hop, formatC_fields hrsv]
  split at h
  · exact encode_of_decodePlain hrsv ‹_› rfl h
  split at h
  · exact encode_of_decodePlain hrsv ‹_› rfl h
  · cases h

end Sys2Proof
end

section
/-! PROOFS. The statements on 10_state: CMD (R23) and the header registers (R32). -/

namespace Sys2Proof.Machine

open Sys2Proof.Safety

/-! ### CMD (R23) -/

/-- A 4-byte access at offset 0 reaches CMD (R22, R44). -/
theorem locate_cmd (ic rc : Nat) : locate ic rc (0 : Offset).toNat 4 = .ok (.reg .cmd) :=
  locate_reg (k := 0) rfl rfl

/-- A 32-bit write to CMD runs the word it writes (R23). -/
theorem busWrite_cmd (w : Word) (s : State) : busWrite 0 4 w s = runCommand w s :=
  busWrite_of_locate (locate_cmd ..)

/-- A 32-bit read of CMD shows 0 (R23). -/
theorem busRead_cmd (s : State) : busRead 0 4 s = .next (s.pushResult 0) :=
  busRead_of_locate (locate_cmd ..) rfl

/-- A word that decodes to a command runs that command (R23). -/
theorem runCommand_of_decode {w : Word} {i : Instr} (h : decode w = .ok i) (s : State) : runCommand w s = exec i s := by
  simp [runCommand, h]

/-- Settles O4: the step performs the access it faces, and that access reaches CMD. -/
theorem stepRunsDecodedCommand : Obligations.StepRunsDecodedCommand := by
  refine ⟨fun s w i hx hd => ?_, fun s hx => ?_⟩
  · calc step s = busWrite 0 4 w s.advance := step_of_faces hx
      _ = runCommand w s.advance := busWrite_cmd w _
      _ = exec i s.advance := runCommand_of_decode hd _
  · calc step s = busRead 0 4 s.advance := step_of_faces hx
      _ = .next (s.advance.pushResult 0) := busRead_cmd _

/-! ### the header registers (R32) -/

/-- HDR_VALID and the five header registers are the same in two states (R27 to R32). -/
def SameHeader (s t : State) : Prop :=
  t.hdrValid = s.hdrValid ∧ t.hdrPlen = s.hdrPlen ∧ t.hdrType = s.hdrType ∧ t.hdrRidx = s.hdrRidx ∧
    t.hdrQidx = s.hdrQidx ∧ t.hdrSerial = s.hdrSerial

/-- Every command but PARSE_HDR keeps the header (R32). -/
theorem exec_keeps_header {i : Instr} {s t : State} (hi : i ≠ .parseHdr) (h : exec i s = .next t) : SameHeader s t := by
  unfold SameHeader
  cases i with
  | parseHdr => exact absurd rfl hi
  | csumClr => cases h; simp [State.succeed_eq]
  | csumAdd imm => cases h; simp [State.succeed_eq]
  | csumIn => obtain ⟨bs, -, rfl⟩ := execCsumIn_next h; simp
  | buildRsp =>
    rcases execBuildRsp_next h with ⟨e, -, rfl⟩ | ⟨-, echo, -, rfl⟩
    · simp
    · simp [State.sampleTime_eq]

/-- Every word but PARSE_HDR's keeps the header, the illegal ones too (R32, R126). -/
theorem runCommand_keeps_header {w : Word} {s t : State} (hw : w ≠ 0x00000001) (h : runCommand w s = .next t) :
    SameHeader s t := by
  rcases runCommand_next h with ⟨i, hd, he⟩ | ⟨-, rfl⟩
  · refine exec_keeps_header ?_ he
    rintro rfl
    exact hw (encode_of_decode hd).symm
  · simp [SameHeader]

/-- The host can neither write the header registers nor change them by a read; only PARSE_HDR's word and the reset input
reach them (R32). -/
theorem perform_keeps_header {x : Input} {s t : State} (hw : x ≠ .access (.write 0 4 0x00000001)) (hr : x ≠ .reset)
    (h : perform x s = .next t) : SameHeader s t := by
  match x with
  | .reset => exact absurd rfl hr
  | .access (.read a n) =>
    obtain ⟨tg, v, -, -, rfl⟩ := busRead_next h
    simp [SameHeader]
  | .access (.write a n v) =>
    rcases busWrite_next h with ⟨rfl, rfl, h⟩ | rfl | rfl | rfl | rfl | ⟨i, -, rfl⟩ | ⟨i, -, rfl⟩ | ⟨i, -, rfl⟩ | ⟨i, -, rfl⟩
    · exact runCommand_keeps_header (fun hv => hw (hv ▸ rfl)) h
    all_goals simp [SameHeader]

/-- A step that faces neither PARSE_HDR's word nor the reset input keeps the header (R32). -/
theorem step_keeps_header {s t : State} (h : step s = .next t) (hw : ¬ Faces s (.access (.write 0 4 0x00000001)))
    (hr : ¬ Faces s .reset) : SameHeader s t := by
  obtain ⟨-, ⟨-, rfl⟩ | ⟨x, hx, hp⟩⟩ := step_next h
  · simp [SameHeader]
  · have hkeep : SameHeader s.advance t := perform_keeps_header (fun e => hw (e ▸ hx)) (fun e => hr (e ▸ hx)) hp
    simpa [SameHeader] using hkeep

/-- Settles O42: the two clauses of PARSE_HDR are its two next states, and every other input keeps the header. -/
theorem onlyParseHdrWritesTheHeader : Obligations.OnlyParseHdrWritesTheHeader := by
  refine ⟨fun s t h hlen => ?_, fun s t h hlen => ?_, fun s t => step_keeps_header, rfl⟩
  · rcases execParseHdr_next h with ⟨hshort, -⟩ | ⟨-, hd, -, rfl⟩
    · omega
    · simp
  · rcases execParseHdr_next h with ⟨-, rfl⟩ | ⟨hlong, -⟩
    · simp
    · omega

end Sys2Proof.Machine
end

section
/-! PROOFS. The statements on 20_memory: which accesses are refused (R43 to R48), that a read changes nothing (R49), and
that an unwritten byte is a fault (R51). -/

namespace Sys2Proof.Machine

open Sys2Proof.Safety

/-! ### the address map, in the terms of the statements (R22, R43 to R45) -/

/-- The model's map and the statements' map agree: an offset maps byte i of a buffer exactly when it lies i bytes into that
buffer's window (R22). -/
theorem windowByte_eq_some_iff {a : Nat} {e : Buf} {i : Nat} :
    windowByte Config.inCap Config.reqCap a = some (e, i) ↔ a = windowBase e + i ∧ i < windowSize e := by
  constructor
  · intro h
    rcases windowByte_eq_some h with ⟨rfl, ha, hi⟩ | ⟨rfl, ha, hi⟩ | ⟨rfl, ha, hi⟩ <;> exact ⟨ha, hi⟩
  · rintro ⟨rfl, hi⟩
    cases e with
    | inBuf => exact windowByte_inBuf Config.reqCap_le hi
    | reqBuf => exact windowByte_reqBuf hi
    | outBuf => exact windowByte_outBuf Config.reqCap_le hi

/-- Every offset of a window is its base and an index below its size. -/
theorem inWindow_iff {e : Buf} {a : Nat} : InWindow e a ↔ ∃ i, a = windowBase e + i ∧ i < windowSize e := by
  constructor
  · rintro ⟨hlow, hhigh⟩
    exact ⟨a - windowBase e, by omega, by omega⟩
  · rintro ⟨i, rfl, hi⟩
    exact ⟨by omega, by omega⟩

/-- A mapped byte lies in its own window and in no other (R22). -/
theorem inWindow_iff_of_windowByte {a i : Nat} {e d : Buf}
    (h : windowByte Config.inCap Config.reqCap a = some (e, i)) : InWindow d a ↔ d = e := by
  constructor
  · intro hd
    obtain ⟨j, hj⟩ := inWindow_iff.1 hd
    have hmap := h.symm.trans (windowByte_eq_some_iff.2 hj)
    cases hmap
    rfl
  · rintro rfl
    exact inWindow_iff.2 ⟨i, windowByte_eq_some_iff.1 h⟩

/-- Every window lies above the register region: the lowest begins at 0x0100 (R22). -/
theorem le_of_inWindow {e : Buf} {a : Nat} (h : InWindow e a) : 0x0100 ≤ a := by
  obtain ⟨hlow, -⟩ := h
  cases e <;> simp only [windowBase] at hlow <;> omega

/-- An aligned 4-byte access to four mapped bytes of a buffer reaches them (R45). -/
theorem locate_word_of_base {a i : Nat} {e : Buf} (ha : a = windowBase e + i) (halign : a % 4 = 0)
    (hi : i + 3 < windowSize e) : locate Config.inCap Config.reqCap a 4 = .ok (.word e i) := by
  have hbyte : ∀ k < 4, windowByte Config.inCap Config.reqCap (a + k) = some (e, i + k) := fun k hk =>
    windowByte_eq_some_iff.2 ⟨by omega, by omega⟩
  exact locate_word halign (hbyte 0 (by omega)) (hbyte 1 (by omega)) (hbyte 2 (by omega)) (hbyte 3 (by omega))

/-- An access that reaches something is legal (R44, R45). -/
theorem legalAt_of_locate {a n : Nat} {t : Target} (h : locate Config.inCap Config.reqCap a n = .ok t) : LegalAt a n := by
  rcases locate_ok h with ⟨r, -, hn, ha, halign, -⟩ | ⟨e, i, -, hn, -, hw⟩ | ⟨e, i, -, hn, -, halign, h0, -, -, h3⟩
  · exact .inl ⟨hn, halign, by omega⟩
  · exact .inr (.inl ⟨hn, e, (inWindow_iff_of_windowByte hw).2 rfl⟩)
  · obtain ⟨hlow, -⟩ := (inWindow_iff_of_windowByte h0).2 rfl
    obtain ⟨-, hhigh⟩ := (inWindow_iff_of_windowByte h3).2 rfl
    exact .inr (.inr ⟨hn, halign, e, fun k hk => ⟨by omega, by omega⟩⟩)

/-- A legal access reaches something (R44, R45). -/
theorem locate_of_legalAt {a n : Nat} (h : LegalAt a n) : ∃ t, locate Config.inCap Config.reqCap a n = .ok t := by
  rcases h with ⟨rfl, halign, ha⟩ | ⟨rfl, e, hw⟩ | ⟨rfl, halign, e, hw⟩
  · have hk : a / 4 < registerMap.length := by
      simp only [registerMap, List.length_cons, List.length_nil]
      omega
    exact ⟨_, locate_reg (List.getElem?_eq_getElem hk) (by omega)⟩
  · obtain ⟨i, hi⟩ := inWindow_iff.1 hw
    exact ⟨_, locate_byte (windowByte_eq_some_iff.2 hi)⟩
  · obtain ⟨i, hi, -⟩ := inWindow_iff.1 (hw 0 (by omega))
    obtain ⟨-, hlast⟩ := hw 3 (by omega)
    exact ⟨_, locate_word_of_base (i := i) hi halign (by omega)⟩

/-- An access reaches nothing exactly when it is not legal (R43 to R45, R47). -/
theorem locate_error_iff {a n : Nat} : (∃ r, locate Config.inCap Config.reqCap a n = .error r) ↔ ¬ LegalAt a n := by
  constructor
  · rintro ⟨r, hr⟩ hlegal
    obtain ⟨t, ht⟩ := locate_of_legalAt hlegal
    cases hr.symm.trans ht
  · intro hillegal
    match hl : locate Config.inCap Config.reqCap a n with
    | .error r => exact ⟨r, rfl⟩
    | .ok t => exact absurd (legalAt_of_locate hl) hillegal

/-! ### where the host may write (R48) -/

/-- The registers and buffers that have "W" in R22. -/
def Target.HostWritable : Target → Prop
  | .reg r => r ∈ [.cmd, .inLen, .reqLen, .tsVal, .tsCtrl]
  | .byte e _ => e ≠ .outBuf
  | .word e _ => e ≠ .outBuf

/-- A mapped byte is writable exactly when its buffer is not OUT_BUF (R48). -/
theorem hostWritable_iff_of_windowByte {a i : Nat} {e : Buf}
    (h : windowByte Config.inCap Config.reqCap a = some (e, i)) : HostWritable a ↔ e ≠ .outBuf := by
  have hlow := le_of_inWindow ((inWindow_iff_of_windowByte h).2 rfl)
  have hreg : a ∉ [0x0000, 0x0008, 0x000C, 0x0010, 0x0014] := by
    intro ha
    simp only [List.mem_cons, List.not_mem_nil, or_false] at ha
    omega
  simp only [HostWritable, hreg, false_or, inWindow_iff_of_windowByte h]
  cases e <;> simp

/-- A register is writable exactly when it stands at one of the five writable offsets (R22, R48). -/
theorem hostWritable_iff_of_registerMap {k : Nat} {r : Reg} (h : registerMap[k]? = some r) :
    HostWritable (4 * k) ↔ r ∈ [.cmd, .inLen, .reqLen, .tsVal, .tsCtrl] := by
  have hk : k < 13 := (List.getElem?_eq_some_iff.1 h).1
  have hwin : ∀ e, ¬ InWindow e (4 * k) := fun e he => by
    have := le_of_inWindow he
    omega
  simp only [HostWritable, hwin, or_false]
  interval_cases k <;> cases h <;> decide

/-- The host may write at an offset exactly when it may write what a legal access there reaches. -/
theorem hostWritable_iff_of_locate {a n : Nat} {t : Target} (h : locate Config.inCap Config.reqCap a n = .ok t) :
    HostWritable a ↔ t.HostWritable := by
  rcases locate_ok h with ⟨r, rfl, -, -, halign, hr⟩ | ⟨e, i, rfl, -, -, hw⟩ | ⟨e, i, rfl, -, -, -, hw, -⟩
  · have ha : a = 4 * (a / 4) := by omega
    rw [ha]
    exact hostWritable_iff_of_registerMap hr
  · exact hostWritable_iff_of_windowByte hw
  · exact hostWritable_iff_of_windowByte hw

/-- No word written to CMD is refused (R126, R134). -/
theorem runCommand_not_refused {w : Word} {s : State} {r : Refusal} : runCommand w s ≠ .refused r := by
  unfold runCommand
  split
  · exact exec_not_refused
  · simp

/-- A write to what an access reaches is refused exactly when the host may not write there (R48). -/
theorem State.writeTarget_refused_iff (s : State) (t : Target) (v : Word) :
    (∃ r, s.writeTarget t v = .refused r) ↔ ¬ t.HostWritable := by
  cases t with
  | reg r =>
    cases r with
    | cmd => simp [State.writeTarget, State.writeReg, Target.HostWritable, runCommand_not_refused]
    | _ => simp [State.writeTarget, State.writeReg, Target.HostWritable]
  | byte e i => cases e <;> simp [State.writeTarget, State.writeByte, Target.HostWritable]
  | word e i => cases e <;> simp [State.writeTarget, State.writeWord, Target.HostWritable]

/-! ### which accesses are refused (R43 to R48) -/

/-- A read is refused exactly when it reaches nothing. -/
theorem busRead_refused_iff {a : Offset} {n : Nat} {s : State} {r : Refusal} :
    busRead a n s = .refused r ↔ locate Config.inCap Config.reqCap a.toNat n = .error r := by
  unfold busRead
  split
  next r' hl => simp [hl]
  next t hl => split <;> simp [hl]

/-- A write is refused exactly when it reaches nothing or what the host may not write. -/
theorem busWrite_refused_iff {a : Offset} {n : Nat} {v : Word} {s : State} :
    (∃ r, busWrite a n v s = .refused r) ↔ ¬ (LegalAt a.toNat n ∧ HostWritable a.toNat) := by
  match hl : locate Config.inCap Config.reqCap a.toNat n with
  | .error r =>
    have hillegal : ¬ LegalAt a.toNat n := locate_error_iff.1 ⟨r, hl⟩
    simp [busWrite, hl, hillegal]
  | .ok t =>
    rw [busWrite_of_locate hl, State.writeTarget_refused_iff, hostWritable_iff_of_locate hl,
      and_iff_right (legalAt_of_locate hl)]

/-- Settles O9: a step is its access, and an access is refused where the address map or the write permissions say. -/
theorem refusedExactlyWhenNotAllowed : Obligations.RefusedExactlyWhenNotAllowed := by
  refine ⟨fun s a n hx => ?_, fun s a n v hx => ?_⟩
  · rw [step_of_faces hx, ← locate_error_iff]
    exact exists_congr fun r => busRead_refused_iff
  · rw [step_of_faces hx]
    exact busWrite_refused_iff

/-! ### a read changes nothing (R49) -/

/-- A step that completes a read shows the value of what the read reaches, and only moves the host's index (R49). -/
theorem step_read_next {s t : State} {a : Offset} {n : Nat} (hx : Faces s (.access (.read a n))) (h : step s = .next t) :
    ∃ tg v, locate Config.inCap Config.reqCap a.toNat n = .ok tg ∧ s.readTarget tg = .ok v ∧
      t = s.advance.pushResult v := by
  rw [step_of_faces hx] at h
  obtain ⟨tg, v, hl, hv, rfl⟩ := busRead_next h
  exact ⟨tg, v, hl, by rwa [State.readTarget_advance] at hv, rfl⟩

/-- A step that faces a read of something that answers completes with its value (R49). -/
theorem step_read_of_locate {s : State} {a : Offset} {n : Nat} {tg : Target} {v : Word}
    (hx : Faces s (.access (.read a n))) (hl : locate Config.inCap Config.reqCap a.toNat n = .ok tg)
    (hv : s.readTarget tg = .ok v) : step s = .next (s.advance.pushResult v) :=
  (step_of_faces hx).trans (busRead_of_locate hl ((s.readTarget_advance tg).trans hv))

/-- Settles O10: the first read leaves the value of its target as it was, so the second shows it again. -/
theorem readChangesNoState : Obligations.ReadChangesNoState := by
  refine ⟨fun s t a n hx h => ?_, fun s t a n hx h hx' => ?_⟩
  · obtain ⟨tg, v, -, -, rfl⟩ := step_read_next hx h
    exact ⟨v, rfl⟩
  · obtain ⟨tg, v, hl, hv, rfl⟩ := step_read_next hx h
    have hsame : (s.advance.pushResult v).readTarget tg = .ok v := by
      rw [State.readTarget_pushResult, State.readTarget_advance, hv]
    exact ⟨v, _, rfl, step_read_of_locate hx' hl hsame, List.append_assoc ..⟩

/-! ### unwritten bytes (R51) -/

/-- A byte read faults exactly where the buffer holds nothing, and names that byte (R16, R51). -/
theorem State.readByte_error_iff {s : State} {e : Buf} {i : Nat} {f : Fault} :
    s.readByte e i = .error f ↔ content s e i = none ∧ f = .uninit e i := by
  have hread : s.readByte e i = match content s e i with
      | some b => .ok b
      | none => .error (.uninit e i) := by
    cases e <;> rfl
  rw [hread]
  cases content s e i <;> simp [eq_comm]

/-- A 4-byte read faults with the fault of one of its bytes (R51). -/
theorem State.readLe32_error {s : State} {e : Buf} {o : Nat} {f : Fault} (h : s.readLe32 e o = .error f) :
    ∃ k < 4, s.readByte e (o + k) = .error f := by
  simp only [State.readLe32, bind_eq_error, reduceCtorEq, and_false, exists_false, or_false] at h
  rcases h with h | ⟨-, -, h | ⟨-, -, h | ⟨-, -, h⟩⟩⟩
  · exact ⟨0, by omega, h⟩
  · exact ⟨1, by omega, h⟩
  · exact ⟨2, by omega, h⟩
  · exact ⟨3, by omega, h⟩

/-- Where a 4-byte read answers, each of its bytes does (R51). -/
theorem State.readByte_ok_of_readLe32 {s : State} {e : Buf} {o : Nat} {v : Word} (h : s.readLe32 e o = .ok v) :
    ∀ k < 4, ∃ b, s.readByte e (o + k) = .ok b := by
  obtain ⟨b0, b1, b2, b3, h0, h1, h2, h3, -⟩ := State.readLe32_ok.1 h
  intro k hk
  interval_cases k
  · exact ⟨b0, h0⟩
  · exact ⟨b1, h1⟩
  · exact ⟨b2, h2⟩
  · exact ⟨b3, h3⟩

/-- A 4-byte read with an unwritten byte is the fault of one of its unwritten bytes (R51). -/
theorem State.readLe32_of_content_none {s : State} {e : Buf} {o : Nat} (h : ∃ k < 4, content s e (o + k) = none) :
    ∃ k < 4, content s e (o + k) = none ∧ s.readLe32 e o = .error (.uninit e (o + k)) := by
  match hv : s.readLe32 e o with
  | .ok v =>
    obtain ⟨k, hk, hnone⟩ := h
    obtain ⟨b, hb⟩ := State.readByte_ok_of_readLe32 hv k hk
    cases hb.symm.trans (State.readByte_error_iff.2 ⟨hnone, rfl⟩)
  | .error f =>
    obtain ⟨k, hk, hf⟩ := State.readLe32_error hv
    obtain ⟨hnone, rfl⟩ := State.readByte_error_iff.1 hf
    exact ⟨k, hk, hnone, rfl⟩

/-- A step that faces a read of something that faults is that fault. -/
theorem step_read_fault_of_locate {s : State} {a : Offset} {n : Nat} {tg : Target} {f : Fault}
    (hx : Faces s (.access (.read a n))) (hl : locate Config.inCap Config.reqCap a.toNat n = .ok tg)
    (hf : s.readTarget tg = .error f) : step s = .fault f :=
  (step_of_faces hx).trans (busRead_fault_of_locate hl ((s.readTarget_advance tg).trans hf))

/-- Settles O14: the read reaches the byte or the four bytes, and reading them meets an unwritten one. -/
theorem readOfUnwrittenByteFaults : Obligations.ReadOfUnwrittenByteFaults := by
  refine ⟨fun s e i a ha hi hx hnone => ?_, fun s e i a ha halign hi hx hnone => ?_⟩
  · have hread : s.readByte e i = .error (.uninit e i) := State.readByte_error_iff.2 ⟨hnone, rfl⟩
    have hfault : s.readTarget (.byte e i) = .error (.uninit e i) := by
      simp only [State.readTarget, hread, bind_error]
    exact step_read_fault_of_locate hx (locate_byte (windowByte_eq_some_iff.2 ⟨ha, hi⟩)) hfault
  · have hbase : windowBase e % 4 = 0 := by cases e <;> rfl
    obtain ⟨k, hk, hnone, hfault⟩ := State.readLe32_of_content_none hnone
    exact ⟨k, hk, hnone, step_read_fault_of_locate hx (locate_word_of_base ha (by omega) hi) hfault⟩

end Sys2Proof.Machine
end

section
/-! PROOFS. The statement on the legal words (30_encoding R65): exactly the 260 words of the commands decode. -/

namespace Sys2Proof

/-! ### legality on the fields of R62 -/

/-- The first condition of R65, on the field OP. -/
theorem opSelects_iff (w : Word) : opSelects w = true ↔ fieldOp w ∈ [1#8, 2#8, 3#8, 4#8, 5#8] := by
  simp [opSelects, fieldOp, ← BitVec.toNat_inj]

/-- The second condition of R65, on the field RSV. -/
theorem rsvClear_iff (w : Word) : rsvClear w = true ↔ fieldRsv w = 0#16 := by
  have hw := w.isLt
  simp only [rsvClear, fieldRsv, beq_iff_eq, ← BitVec.toNat_inj, BitVec.extractLsb'_toNat,
    Nat.shiftRight_eq_div_pow, BitVec.toNat_ofNat]
  omega

/-- The third condition of R65, on the fields OP and IMM8. -/
theorem immAllowed_iff (w : Word) : immAllowed w = true ↔ fieldOp w = 3#8 ∨ fieldImm8 w = 0#8 := by
  simp [immAllowed, fieldOp, fieldImm8, ← BitVec.toNat_inj, Nat.shiftRight_eq_div_pow]

/-- `legal(w)` of R65, on the fields of R62. -/
theorem legalWord_iff (w : Word) :
    legalWord w = true ↔
      fieldOp w ∈ [1#8, 2#8, 3#8, 4#8, 5#8] ∧ fieldRsv w = 0#16 ∧ (fieldOp w = 3#8 ∨ fieldImm8 w = 0#8) := by
  simp only [legalWord, Bool.and_eq_true, opSelects_iff, rsvClear_iff, immAllowed_iff, and_assoc]

/-! ### the commands and their words -/

/-- The word of every command is legal and has the command's fields (R62 to R65). -/
theorem encode_fields (i : Instr) : Laws.EncodeLegal.Statement i := by
  cases i with
  | parseHdr => exact Laws.EncodeLegal.parseHdr
  | csumClr => exact Laws.EncodeLegal.csumClr
  | csumAdd imm => exact Laws.EncodeLegal.csumAdd imm
  | csumIn => exact Laws.EncodeLegal.csumIn
  | buildRsp => exact Laws.EncodeLegal.buildRsp

/-- The word of a command decodes to that command (R63). -/
theorem decode_encode (i : Instr) : decode (encode i) = .ok i := by
  obtain ⟨-, hop, himm, hrsv⟩ := encode_fields i
  cases i <;> simp [decode, decodePlain, hop, himm, hrsv, Laws.EncodeLegal.opcode, Laws.EncodeLegal.immediate]

/-- A word decodes to some command exactly when it is some command's word. -/
theorem exists_decode_iff_exists_encode (w : Word) : (∃ i, decode w = .ok i) ↔ ∃ i, encode i = w := by
  constructor
  · rintro ⟨i, h⟩
    exact ⟨i, encode_of_decode h⟩
  · rintro ⟨i, rfl⟩
    exact ⟨i, decode_encode i⟩

/-- Exactly the legal words decode (R65). -/
theorem exists_decode_iff_legalWord (w : Word) : (∃ i, decode w = .ok i) ↔ legalWord w = true := by
  constructor
  · rintro ⟨i, h⟩
    obtain ⟨hlegal, -⟩ := encode_fields i
    rwa [encode_of_decode h] at hlegal
  · intro h
    obtain ⟨hop, hrsv, himm⟩ := (legalWord_iff w).1 h
    rcases himm with hadd | himm
    · exact ⟨.csumAdd (fieldImm8 w), by simp [decode, hrsv, hadd]⟩
    · have hplain : ∀ i, decodePlain w i = .ok i := fun i => by simp [decodePlain, himm]
      simp only [List.mem_cons, List.not_mem_nil, or_false] at hop
      rcases hop with hop | hop | hop | hop | hop <;> simp [decode, hrsv, hop, hplain]

/-- Different commands have different words. -/
theorem encode_injective : Function.Injective encode := fun i j h => by
  have hok : Except.ok i = (Except.ok j : Except DecodeError Instr) := by
    rw [← decode_encode i, h, decode_encode j]
  exact Except.ok.inj hok

/-! ### the number of commands -/

/-- CSUM_ADD with each of its immediates (R64). -/
def csumAddCommands : List Instr := (List.finRange 256).map fun k => .csumAdd (BitVec.ofFin k)

/-- Every command once: the four without an operand, and CSUM_ADD with each of its immediates (R63, R64). -/
def commands : List Instr := [.parseHdr, .csumClr, .csumIn, .buildRsp] ++ csumAddCommands

theorem mem_csumAddCommands (imm : Byte) : .csumAdd imm ∈ csumAddCommands :=
  List.mem_map.2 ⟨imm.toFin, List.mem_finRange _, rfl⟩

theorem mem_commands (i : Instr) : i ∈ commands := by
  cases i with
  | csumAdd imm => exact List.mem_append_right _ (mem_csumAddCommands imm)
  | parseHdr | csumClr | csumIn | buildRsp => simp [commands]

theorem commands_length : commands.length = 260 := by
  simp [commands, csumAddCommands]

theorem commands_nodup : commands.Nodup := by
  have hadd : csumAddCommands.Nodup :=
    (List.nodup_finRange 256).map fun k l h => by simpa using h
  refine List.nodup_append'.2 ⟨by decide, hadd, ?_⟩
  simp [List.Disjoint, csumAddCommands]

end Sys2Proof

namespace Sys2Proof.Machine

/-- A word that is no command raises ILLEGAL_COMMAND, which changes ERR alone (R126). -/
theorem runCommand_of_not_legalWord {w : Word} (h : legalWord w = false) (s : State) :
    runCommand w s = .next (s.setErr 5) := by
  match hd : decode w with
  | .ok i => simp [(exists_decode_iff_legalWord w).1 ⟨i, hd⟩] at h
  | .error e => simp [runCommand, hd, State.takeError_eq]

/-- Settles O2: the legal words are the words of the 260 commands. -/
theorem legalWordsAreTheCommands : Obligations.LegalWordsAreTheCommands := by
  refine ⟨legalWord_iff, exists_decode_iff_legalWord, fun w s h => runCommand_of_not_legalWord h s,
    commands.map encode, commands_nodup.map encode_injective, by rw [List.length_map, commands_length], fun w => ?_⟩
  calc w ∈ commands.map encode ↔ ∃ i, encode i = w := by simp [mem_commands]
    _ ↔ legalWord w = true := by rw [← exists_decode_iff_exists_encode, exists_decode_iff_legalWord]

end Sys2Proof.Machine
end

section
/-! PROOFS. The statements on the two byte formats: the header PARSE_HDR reads (30_encoding R66, R67) and the frame
BUILD_RSP builds (R69 to R72). -/

namespace Sys2Proof.Machine

/-! ### PARSE_HDR, an equation for each of its ends -/

/-- An IN_LEN below 11 is FORMAT_ERROR (R82). -/
theorem execParseHdr_of_short {s : State} (h : s.inLen < 11) : execParseHdr s = .next (s.takeError .formatError) := by
  simp [execParseHdr, h]

/-- A header whose bytes are written is parsed (R83). -/
theorem execParseHdr_of_readHeader_ok {s : State} {hd : Header} (hlen : 11 ≤ s.inLen) (h : s.readHeader = .ok hd) :
    execParseHdr s = .next ((s.setHeader hd true).setErr 0) := by
  simp [execParseHdr, Nat.not_lt.2 hlen, h, State.succeed_eq]

/-- A header with an unwritten byte is that byte's fault (R88). -/
theorem execParseHdr_of_readHeader_error {s : State} {f : Fault} (hlen : 11 ≤ s.inLen) (h : s.readHeader = .error f) :
    execParseHdr s = .fault f := by
  simp [execParseHdr, Nat.not_lt.2 hlen, h]

/-- Settles O20: both the length check and the header read answer the same for the two contents of IN_BUF. -/
theorem parseHdrIgnoresReservedAndLaterBytes : Obligations.ParseHdrIgnoresReservedAndLaterBytes := by
  intro s m hm
  have hread : State.readHeader { s with inBuf := m } = s.readHeader := State.readHeader_congr hm
  simp only [exec]
  split
  next t ht =>
    rcases execParseHdr_next ht with ⟨hlen, rfl⟩ | ⟨hlen, hd, hok, rfl⟩
    · exact execParseHdr_of_short hlen
    · exact execParseHdr_of_readHeader_ok hlen (hread.trans hok)
  next f hf =>
    obtain ⟨hlen, herr⟩ := execParseHdr_fault hf
    exact execParseHdr_of_readHeader_error hlen (hread.trans herr)
  next r hr => exact execParseHdr_not_refused hr

/-! ### the frame (R69 to R72) -/

/-- The 23 bytes of the frame: the response header (R109, R110), the payload (R107), and behind them the checksum of the
message's bytes 1 to 20 and the terminator (R111, R112). -/
theorem responseFrame_eq (type qidx : Byte) (serial : Word) (echo : Byte) (ts : Word) :
    responseFrame type qidx serial echo ts =
      [0xA5, 0x0A, 0x00, 0x00, BitVec.ofNat 8 (type.toNat - 0x30), qidx, qidx,
       serial.extractLsb' 0 8, serial.extractLsb' 8 8, serial.extractLsb' 16 8, serial.extractLsb' 24 8, echo, 0x01,
       ts.extractLsb' 0 8, ts.extractLsb' 8 8, ts.extractLsb' 16 8, ts.extractLsb' 24 8, 0xAA, 0xAA, 0x00, 0x00,
       checksum8 (slice (responseMsg type qidx serial echo ts) 1 21), 0x15] := rfl

/-- Bytes 1 to 20 of the message are those of the frame: the checksum and the terminator only follow them (R112). -/
theorem slice_responseMsg (type qidx : Byte) (serial : Word) (echo : Byte) (ts : Word) :
    slice (responseMsg type qidx serial echo ts) 1 21 =
      ((responseFrame type qidx serial echo ts).drop 1).take 20 := rfl

/-- `checksum8` is the sum of its bytes, mod 256 (R94). -/
theorem checksum8_toNat (bs : List Byte) : (checksum8 bs).toNat = (bs.map BitVec.toNat).sum % 256 := by
  simp [checksum8, csumFrom_toNat]

/-- Byte 21 of the frame is the sum of its bytes 1 to 20, mod 256 (R72, R112). -/
theorem responseFrame_checksum (type qidx : Byte) (serial : Word) (echo : Byte) (ts : Word) :
    (checksum8 (slice (responseMsg type qidx serial echo ts) 1 21)).toNat =
      ((((responseFrame type qidx serial echo ts).drop 1).take 20).map BitVec.toNat).sum % 256 := by
  rw [checksum8_toNat, slice_responseMsg]

/-! ### BUILD_RSP, when it builds -/

/-- With its inputs in place BUILD_RSP puts the frame into OUT_BUF (R105). -/
theorem execBuildRsp_of_ready {s : State} {echo : Byte} (hchecks : buildError s = none)
    (hecho : s.reqBuf.read 0 = some echo) :
    execBuildRsp s = .next ((s.setOut (outBufOf (responseFrame s.hdrType s.hdrQidx s.hdrSerial echo s.timestamp)
      (responseFrame_length ..)) 23).sampleTime.setErr 0) := by
  simp [execBuildRsp, hchecks, State.readByte_reqBuf_ok.2 hecho, State.succeed_eq]

/-- Settles O30: the frame is the message's bytes, the checksum of its bytes 1 to 20, and the terminator. -/
theorem buildRspBuildsTheFrame : Obligations.BuildRspBuildsTheFrame := by
  rintro s echo ts hvalid hlen htype hecho rfl
  have hchecks : buildError s = none := buildError_eq_none.2 ⟨hvalid, by omega, htype⟩
  refine ⟨outBufOf (responseFrame s.hdrType s.hdrQidx s.hdrSerial echo s.timestamp) (responseFrame_length ..), ?_, ?_, ?_⟩
  · rw [exec, execBuildRsp_of_ready hchecks hecho, State.sampleTime_eq]
    rfl
  · exact responseFrame_eq ..
  · exact responseFrame_checksum ..

end Sys2Proof.Machine
end

section
/-! PROOFS. The statement on the program syntax (30_encoding R74 to R76). -/

namespace Sys2Proof.Machine

/-- Bytes whose offsets all lie in the register space are stored one by one, in order (R42, R76). -/
theorem storeBytes_eq {base k : Nat} {bs : List Byte} (h : base + k + bs.length ≤ 0x2000) :
    storeBytes base k bs = some ((bs.zipIdx k).map fun p => wr8Input (BitVec.ofNat 13 (base + p.2)) p.1) := by
  induction bs generalizing k with
  | nil => rfl
  | cons b bs ih =>
    rw [List.length_cons] at h
    have hoff : offsetOf (base + k) = some (BitVec.ofNat 13 (base + k)) := if_pos (by omega)
    simp [storeBytes, hoff, ih (k := k + 1) (by omega)]

/-- Settles O49: LOAD_IN and LOAD_REQ store their bytes inside the register space, the rest is `expand`'s own text. -/
theorem statementsExpandToTheirAccesses : Obligations.StatementsExpandToTheirAccesses := by
  refine ⟨fun i => rfl, fun bs h => ?_, fun bs h => ?_, fun t => rfl, rfl, fun bs => rfl, rfl⟩
  · rw [expand, storeBytes_eq (by omega)]
    rfl
  · rw [expand, storeBytes_eq (by omega)]
    rfl

end Sys2Proof.Machine
end

section
/-! PROOFS. The statements on PARSE_HDR (40_header_parser): its fields (R83), its error (R82, R85), its frame (R86) and its
faults (R88). -/

namespace Sys2Proof.Machine

open Sys2Proof.Safety

/-! ### little-endian fields as numbers (R11) -/

theorem le16_eq_ofNat (b0 b1 : Byte) : le16 b0 b1 = BitVec.ofNat 16 (b0.toNat + 2 ^ 8 * b1.toNat) := by
  calc le16 b0 b1 = BitVec.ofNat 16 (le16 b0 b1).toNat := by simp
    _ = _ := by simp only [le16_toNat, Nat.reducePow]

theorem le32_eq_ofNat (b0 b1 b2 b3 : Byte) :
    le32 b0 b1 b2 b3 = BitVec.ofNat 32 (b0.toNat + 2 ^ 8 * b1.toNat + 2 ^ 16 * b2.toNat + 2 ^ 24 * b3.toNat) := by
  calc le32 b0 b1 b2 b3 = BitVec.ofNat 32 (le32 b0 b1 b2 b3).toNat := by simp
    _ = _ := by simp only [le32_toNat, Nat.reducePow]

/-! ### the nine field bytes (R66, R88) -/

/-- The indexes of the bytes that hold the header's fields: every byte below 11 but [0] and [3] (R66). -/
abbrev headerOffsets : List Nat := [1, 2, 4, 5, 6, 7, 8, 9, 10]

/-- A little-endian half faults with the fault of one of its bytes (R51). -/
theorem State.readLe16_error {s : State} {e : Buf} {o : Nat} {f : Fault} (h : s.readLe16 e o = .error f) :
    s.readByte e o = .error f ∨ s.readByte e (o + 1) = .error f := by
  simp only [State.readLe16, bind_eq_error, reduceCtorEq, and_false, exists_false, or_false] at h
  rcases h with h | ⟨-, -, h⟩
  · exact .inl h
  · exact .inr h

/-- The header read faults with the fault of one of the nine field bytes (R88). -/
theorem State.readHeader_error {s : State} {f : Fault} (h : s.readHeader = .error f) :
    ∃ k ∈ headerOffsets, s.readByte .inBuf k = .error f := by
  simp only [State.readHeader, bind_eq_error, reduceCtorEq, and_false, exists_false, or_false] at h
  rcases h with hplen | ⟨-, -, htype | ⟨-, -, hridx | ⟨-, -, hqidx | ⟨-, -, hserial⟩⟩⟩⟩
  · rcases State.readLe16_error hplen with h1 | h2
    · exact ⟨1, by decide, h1⟩
    · exact ⟨2, by decide, h2⟩
  · exact ⟨4, by decide, htype⟩
  · exact ⟨5, by decide, hridx⟩
  · exact ⟨6, by decide, hqidx⟩
  · obtain ⟨k, hk, hbyte⟩ := State.readLe32_error hserial
    exact ⟨7 + k, by interval_cases k <;> decide, hbyte⟩

/-- Where the header read answers, each of the nine field bytes does (R88). -/
theorem State.readByte_ok_of_readHeader {s : State} {hd : Header} (h : s.readHeader = .ok hd) :
    ∀ k ∈ headerOffsets, ∃ b, s.readByte .inBuf k = .ok b := by
  simp only [State.readHeader, bind_eq_ok] at h
  obtain ⟨plen, hplen, type, htype, ridx, hridx, qidx, hqidx, serial, hserial, -⟩ := h
  obtain ⟨b1, b2, h1, h2, -⟩ := State.readLe16_ok.1 hplen
  obtain ⟨b7, b8, b9, b10, h7, h8, h9, h10, -⟩ := State.readLe32_ok.1 hserial
  simp [h1, h2, htype, hridx, hqidx, h7, h8, h9, h10]

/-- The header read faults exactly when one of the nine field bytes is unwritten (R88). -/
theorem State.exists_readHeader_error_iff {s : State} :
    (∃ f, s.readHeader = .error f) ↔ ∃ k ∈ headerOffsets, s.inBuf.read k = none := by
  constructor
  · rintro ⟨f, hf⟩
    obtain ⟨k, hk, hbyte⟩ := State.readHeader_error hf
    exact ⟨k, hk, (State.readByte_error_iff.1 hbyte).1⟩
  · rintro ⟨k, hk, hnone⟩
    match hread : s.readHeader with
    | .error f => exact ⟨f, rfl⟩
    | .ok hd =>
      obtain ⟨b, hb⟩ := State.readByte_ok_of_readHeader hread k hk
      cases hb.symm.trans (State.readByte_inBuf_none hnone)

/-! ### PARSE_HDR -/

/-- PARSE_HDR faults exactly when its length check passes and its header read faults (R82, R88). -/
theorem execParseHdr_fault_iff {s : State} {f : Fault} :
    execParseHdr s = .fault f ↔ 11 ≤ s.inLen ∧ s.readHeader = .error f :=
  ⟨execParseHdr_fault, fun ⟨hlen, hread⟩ => execParseHdr_of_readHeader_error hlen hread⟩

/-- Both ends of PARSE_HDR only set the header and ERR (R86). -/
theorem execParseHdr_next_eq {s t : State} (h : execParseHdr s = .next t) :
    ∃ hd valid c, t = (s.setHeader hd valid).setErr c := by
  rcases execParseHdr_next h with ⟨-, ht⟩ | ⟨-, hd, -, ht⟩
  · exact ⟨Header.zero, false, 1, ht⟩
  · exact ⟨hd, true, 0, ht⟩

/-- Settles O17: the header read answers the nine bytes' fields, and PARSE_HDR stores them. -/
theorem parseHdrReadsItsFieldsAtFixedOffsets : Obligations.ParseHdrReadsItsFieldsAtFixedOffsets := by
  intro s b1 b2 b4 b5 b6 b7 b8 b9 b10 hlen h1 h2 h4 h5 h6 h7 h8 h9 h10
  have hread := State.readHeader_ok h1 h2 h4 h5 h6 h7 h8 h9 h10
  rw [le16_eq_ofNat, le32_eq_ofNat] at hread
  exact execParseHdr_of_readHeader_ok hlen hread

/-- Settles O18: the length check alone tells PARSE_HDR's two next states apart, and they differ in ERR. -/
theorem parseHdrFormatErrorClearsTheHeader : Obligations.ParseHdrFormatErrorClearsTheHeader := by
  refine ⟨fun s hlen => execParseHdr_of_short hlen, fun s t h => ?_⟩
  rcases execParseHdr_next h with ⟨hshort, rfl⟩ | ⟨hlong, hd, -, rfl⟩
  · simp [hshort]
  · simp [Nat.not_lt.2 hlong]

/-- Settles O19: setting the header and ERR stores into no buffer. -/
theorem parseHdrFrame : Obligations.ParseHdrFrame := by
  intro s t h
  obtain ⟨hd, valid, c, rfl⟩ := execParseHdr_next_eq h
  exact ⟨rfl, fun e i => by cases e <;> rfl⟩

/-- Settles O21: past the length check, a fault of PARSE_HDR is the header read's, so one of a field byte. -/
theorem parseHdrFaultsOnUnwrittenFieldBytes : Obligations.ParseHdrFaultsOnUnwrittenFieldBytes := by
  refine ⟨fun s => ?_, fun s f h => ?_⟩
  · calc (∃ f, execParseHdr s = .fault f) ↔ 11 ≤ s.inLen ∧ ∃ f, s.readHeader = .error f := by
          simp only [execParseHdr_fault_iff, exists_and_left]
      _ ↔ 11 ≤ s.inLen ∧ ∃ k ∈ headerOffsets, s.inBuf.read k = none :=
          and_congr_right fun _ => State.exists_readHeader_error_iff
  · obtain ⟨-, hread⟩ := execParseHdr_fault h
    obtain ⟨k, hk, hbyte⟩ := State.readHeader_error hread
    exact ⟨k, hk, State.readByte_error_iff.1 hbyte⟩

end Sys2Proof.Machine
end

section
/-! PROOFS. The statements on the checksum function (41_checksum R94, R95) and on CSUM_CLR, CSUM_ADD and CSUM_IN (R97 to
R102). -/

namespace Sys2Proof

/-! ### the words of the checksum commands (R62 to R65) -/

/-- A command has one word, and only that word decodes to it (R63). -/
theorem decode_eq_ok_iff_eq_encode {w : Word} {i : Instr} : decode w = .ok i ↔ w = encode i := by
  constructor
  · intro h
    exact (encode_of_decode h).symm
  · rintro rfl
    exact decode_encode i

/-- The value of a word in format C: OP in the low byte, IMM8 in the next (R62). -/
theorem formatC_toNat (imm op : Byte) : (formatC imm op).toNat = op.toNat + 256 * imm.toNat := by
  have himm : (0#16 ++ imm : BitVec (16 + 8)).toNat = imm.toNat := by
    rw [BitVec.toNat_append, BitVec.toNat_zero, Nat.zero_shiftLeft, Nat.zero_or]
  have hop : op.toNat < 2 ^ 8 := op.isLt
  rw [formatC, BitVec.toNat_append, himm, ← Nat.shiftLeft_add_eq_or_of_lt hop, Nat.shiftLeft_eq]
  omega

/-- A word with reserved bits set is no command, whatever its OP (R65). -/
theorem legalWord_eq_false_of_fieldRsv_ne {w : Word} (h : fieldRsv w ≠ 0#16) : legalWord w = false := by
  rw [← Bool.not_eq_true, legalWord_iff]
  rintro ⟨-, hrsv, -⟩
  exact h hrsv

/-- A legal word whose OP is not that of CSUM_ADD holds nothing but its OP (R65). -/
theorem eq_formatC_of_legalWord {w : Word} (hadd : fieldOp w ≠ 3#8) (h : legalWord w = true) :
    w = formatC 0 (fieldOp w) := by
  obtain ⟨-, hrsv, himm⟩ := (legalWord_iff w).1 h
  calc w = formatC (fieldImm8 w) (fieldOp w) := (formatC_fields hrsv).symm
    _ = formatC 0 (fieldOp w) := congrArg (formatC · (fieldOp w)) (himm.resolve_left hadd)

end Sys2Proof

namespace Sys2Proof.Machine

open Sys2Proof.Safety

/-! ### the running sum (R94, R95, R101) -/

/-- One addition, as a number cut to a byte (R101). -/
theorem csumStep_eq_ofNat (acc b : Byte) : csumStep acc b = BitVec.ofNat 8 (acc.toNat + b.toNat) := by
  apply BitVec.eq_of_toNat_eq
  rw [csumStep_toNat, BitVec.toNat_ofNat]

/-- The whole loop, as a number cut to a byte: reducing once is reducing after each addition (R94). -/
theorem csumFrom_eq_ofNat (acc : Byte) (bs : List Byte) :
    csumFrom acc bs = BitVec.ofNat 8 (acc.toNat + (bs.map BitVec.toNat).sum) := by
  apply BitVec.eq_of_toNat_eq
  rw [csumFrom_toNat, BitVec.toNat_ofNat]

/-- The loop over bytes is the loop over integers that reduces mod 256 after each addition (R94). -/
theorem foldl_csumStep_toNat (acc : Byte) (bs : List Byte) :
    bs.foldl (fun n b => (n + b.toNat) % 256) acc.toNat = (bs.foldl csumStep acc).toNat :=
  List.foldl_hom BitVec.toNat fun acc b => (csumStep_toNat acc b).symm

/-- Settles O28: the running sum is the value of a byte, so it stays below 256. -/
theorem checksumIsTheMaskedRunningSum : Obligations.ChecksumIsTheMaskedRunningSum := by
  have hsum (bs : List Byte) :
      bs.foldl (fun acc b => (acc + b.toNat) % 256) 0 = (bs.foldl csumStep 0).toNat := foldl_csumStep_toNat 0 bs
  refine ⟨fun bs => ?_, fun bs => ?_⟩
  · rw [hsum, checksum8, csumFrom, mask8_toNat]
  · rw [hsum]
    exact Nat.mod_eq_of_lt (bs.foldl csumStep 0).isLt

/-! ### CSUM_IN (R99) -/

/-- A run of bytes of IN_BUF that are all written answers them (R25). -/
theorem State.readBytes_inBuf_of_read {s : State} {n : Nat} {bs : List Byte} (hlen : bs.length = n)
    (h : ∀ k < n, s.inBuf.read k = bs[k]?) : s.readBytes .inBuf 0 n = .ok bs := by
  refine State.readBytes_ok.2 ⟨hlen, fun k hk => ?_⟩
  rw [Nat.zero_add, State.readByte_inBuf_ok, h k (hlen ▸ hk), List.getElem?_eq_getElem hk]

/-- A run of bytes of which one is unwritten is the fault of one of its unwritten bytes (R51). -/
theorem State.readBytes_of_content_none {s : State} {e : Buf} {o n : Nat} (h : ∃ k < n, content s e (o + k) = none) :
    ∃ k < n, content s e (o + k) = none ∧ s.readBytes e o n = .error (.uninit e (o + k)) := by
  match hread : s.readBytes e o n with
  | .ok bs =>
    obtain ⟨k, hk, hnone⟩ := h
    obtain ⟨hlen, hbytes⟩ := State.readBytes_ok.1 hread
    cases (hbytes k (hlen ▸ hk)).symm.trans (State.readByte_error_iff.2 ⟨hnone, rfl⟩)
  | .error f =>
    obtain ⟨k, hk, hf, -⟩ := State.readBytes_error hread
    obtain ⟨hnone, rfl⟩ := State.readByte_error_iff.1 hf
    exact ⟨k, hk, hnone, rfl⟩

/-- With its bytes written CSUM_IN adds them all (R99). -/
theorem execCsumIn_of_readBytes_ok {s : State} {bs : List Byte} (h : s.readBytes .inBuf 0 s.inLen = .ok bs) :
    execCsumIn s = .next ((s.setCsumAcc (csumFrom s.csumAcc bs)).setErr 0) := by
  simp only [execCsumIn, h, State.succeed_eq]

/-- A byte that cannot be read is CSUM_IN's fault (R99). -/
theorem execCsumIn_of_readBytes_error {s : State} {f : Fault} (h : s.readBytes .inBuf 0 s.inLen = .error f) :
    execCsumIn s = .fault f := by
  simp only [execCsumIn, h]

/-- Settles O25: CSUM_IN reads the run of IN_LEN bytes, and adds them or meets an unwritten one. -/
theorem csumInAddsTheBuffer : Obligations.CsumInAddsTheBuffer := by
  refine ⟨fun w => decode_eq_ok_iff_eq_encode, fun s bs hlen hbytes => ?_, fun s hnone => ?_⟩
  · rw [exec, execCsumIn_of_readBytes_ok (State.readBytes_inBuf_of_read hlen hbytes), csumFrom_eq_ofNat]
    rfl
  · obtain ⟨k, hk, hunwritten, hread⟩ :=
      State.readBytes_of_content_none (s := s) (e := .inBuf) (o := 0) (by simpa [content] using hnone)
    rw [Nat.zero_add] at hunwritten hread
    exact ⟨k, hk, hunwritten, execCsumIn_of_readBytes_error hread⟩

/-! ### the frame of the three commands (R102) -/

/-- Each of the three commands only sets CSUM_ACC and clears ERR (R102). -/
theorem exec_checksum_next {i : Instr} {s t : State} (hi : i = .csumClr ∨ i = .csumIn ∨ ∃ imm, i = .csumAdd imm)
    (h : exec i s = .next t) : ∃ v, t = (s.setCsumAcc v).setErr 0 := by
  rcases hi with rfl | rfl | ⟨imm, rfl⟩
  · cases h
    exact ⟨0, rfl⟩
  · obtain ⟨bs, -, ht⟩ := execCsumIn_next h
    exact ⟨csumFrom s.csumAcc bs, ht⟩
  · cases h
    exact ⟨csumStep s.csumAcc imm, rfl⟩

/-- Settles O26: setting CSUM_ACC and ERR stores into no buffer. -/
theorem checksumCommandsFrame : Obligations.ChecksumCommandsFrame := by
  intro i s t hi h
  obtain ⟨v, rfl⟩ := exec_checksum_next hi h
  exact ⟨rfl, fun e j => by cases e <;> rfl⟩

/-! ### CSUM_CLR and CSUM_ADD (R97, R98) -/

/-- Settles O23: of the words with CSUM_CLR's OP only its own is legal. -/
theorem csumClrClears : Obligations.CsumClrClears := by
  refine ⟨fun w => decode_eq_ok_iff_eq_encode, fun w s hop hw => runCommand_of_not_legalWord ?_ s, execCsumClr_eq⟩
  change fieldOp w = 2#8 at hop
  rw [← Bool.not_eq_true]
  intro hlegal
  have hword : w = formatC 0 2#8 := hop ▸ eq_formatC_of_legalWord (by rw [hop]; decide) hlegal
  exact hw hword

/-- Settles O24: CSUM_ADD's word is in format C, and its sum is one step of the loop. -/
theorem csumAddAddsItsImmediate : Obligations.CsumAddAddsItsImmediate := by
  refine ⟨fun w imm => ?_,
    fun w s _ hrsv => runCommand_of_not_legalWord (legalWord_eq_false_of_fieldRsv_ne hrsv) s, fun imm s => ?_⟩
  · rw [decode_eq_ok_iff_eq_encode, ← BitVec.toNat_inj, encode, formatC_toNat]
    rfl
  · rw [exec, execCsumAdd_eq, csumStep_eq_ofNat]
    rfl

end Sys2Proof.Machine
end

section
/-! PROOFS. The statements on BUILD_RSP (42_response_builder): its errors (R114, R115), the response type (R108), the
timestamp (R113), its frame (R116) and what it does not read (R106, R118). -/

namespace Sys2Proof.Machine

/-! ### the error checks, in their order (R114) -/

theorem buildError_of_no_header {s : State} (hvalid : s.hdrValid = false) : buildError s = some .noHeader := by
  simp [buildError, hvalid]

theorem buildError_of_no_payload {s : State} (hvalid : s.hdrValid = true) (hlen : s.reqLen = 0) :
    buildError s = some .argumentError := by
  simp [buildError, hvalid, hlen]

theorem buildError_of_low_type {s : State} (hvalid : s.hdrValid = true) (hlen : 1 ≤ s.reqLen)
    (htype : s.hdrType.toNat < 0x30) : buildError s = some .respTypeRange := by
  simp [buildError, hvalid, Nat.ne_of_gt hlen, htype]

/-- Every error has a code other than that of success (R121). -/
theorem HwError.code_ne_zero (e : HwError) : e.code ≠ 0 := by
  cases e <;> decide

/-! ### an equation for each end of BUILD_RSP that builds no frame -/

/-- A failing BUILD_RSP erases OUT_BUF and leaves the code of its error, whichever of the three it is (R115). -/
theorem execBuildRsp_of_buildError {s : State} {e : HwError} (h : buildError s = some e) :
    execBuildRsp s = .next ((s.setOut (Vector.replicate 23 0) 0).setErr e.code) := by
  simp only [execBuildRsp, h]
  rcases buildError_eq_some h with ⟨rfl, -⟩ | ⟨rfl, -⟩ | ⟨rfl, -⟩ <;> rfl

/-- Past the checks, an echoed byte that cannot be read is BUILD_RSP's fault (R105). -/
theorem execBuildRsp_of_readByte_error {s : State} {f : Fault} (hchecks : buildError s = none)
    (hecho : s.readByte .reqBuf 0 = .error f) : execBuildRsp s = .fault f := by
  simp only [execBuildRsp, hchecks, hecho]

/-- Settles O31: each clause meets the condition of one error, and none of an earlier one. -/
theorem buildRspErrorsInOrder : Obligations.BuildRspErrorsInOrder := by
  refine fun s => ⟨fun hvalid => ?_, fun hvalid hlen => ?_, fun hvalid hlen htype => ?_⟩
  · exact execBuildRsp_of_buildError (buildError_of_no_header hvalid)
  · exact execBuildRsp_of_buildError (buildError_of_no_payload hvalid hlen)
  · exact execBuildRsp_of_buildError (buildError_of_low_type hvalid hlen htype)

/-! ### the bytes of the built frame, and the state after the sample -/

/-- Byte 4 of the frame is the response type (R109). -/
theorem outBufOf_responseFrame_type (type qidx : Byte) (serial : Word) (echo : Byte) (ts : Word) :
    (outBufOf (responseFrame type qidx serial echo ts) (responseFrame_length ..))[4] = responseType type := rfl

/-- Bytes 13 to 16 of the frame are the timestamp (R107, R111). -/
theorem slice_responseFrame_timestamp (type qidx : Byte) (serial : Word) (echo : Byte) (ts : Word) :
    slice (responseFrame type qidx serial echo ts) 13 17 = encLe32 ts := rfl

@[simp] theorem outBufOf_toList (bs : List Byte) (h : bs.length = 23) : (outBufOf bs h).toList = bs := rfl

@[simp] theorem State.sampleTime_outBuf (s : State) : s.sampleTime.outBuf = s.outBuf := by
  rw [State.sampleTime_eq]

@[simp] theorem State.sampleTime_nowDraws (s : State) :
    s.sampleTime.nowDraws = s.nowDraws + if s.tsExplicit then 0 else 1 := by
  rw [State.sampleTime_eq]

/-! ### the response type (R108) -/

/-- The subtraction is exact: a byte of at least 0x30, less 0x30, is a byte again (R108). -/
theorem responseType_toNat {type : Byte} (h : 0x30 ≤ type.toNat) : (responseType type).toNat + 0x30 = type.toNat := by
  have hbyte : type.toNat < 256 := type.isLt
  rw [responseType, BitVec.toNat_ofNat]
  omega

/-- Settles O32: the type alone decides whether the checks pass, and where they do the subtraction is exact. -/
theorem responseTypeIsExact : Obligations.ResponseTypeIsExact := by
  refine fun s t h hvalid hlen => ⟨fun htype => ?_, fun htype => ?_⟩
  · have hchecks : buildError s = none := buildError_eq_none.2 ⟨hvalid, Nat.ne_of_gt hlen, htype⟩
    rcases execBuildRsp_next h with ⟨e, he, -⟩ | ⟨-, echo, -, rfl⟩
    · cases hchecks.symm.trans he
    · have hexact := responseType_toNat htype
      have hbyte : s.hdrType.toNat < 256 := s.hdrType.isLt
      refine ⟨rfl, ?_⟩
      simp only [State.setErr_outBuf, State.sampleTime_outBuf, State.setOut_outBuf, outBufOf_responseFrame_type]
      exact ⟨hexact, by omega⟩
  · cases h.symm.trans (execBuildRsp_of_buildError (buildError_of_low_type hvalid hlen htype))
    exact ⟨rfl, rfl⟩

/-! ### the time sample (R113) -/

/-- Settles O33: an error has a code other than 0 and takes no sample; a frame holds the timestamp TS_EXPLICIT chooses. -/
theorem timeIsSampledOnceAfterTheChecks : Obligations.TimeIsSampledOnceAfterTheChecks := by
  intro s t h
  rcases execBuildRsp_next h with ⟨e, -, rfl⟩ | ⟨-, echo, -, rfl⟩
  · exact ⟨fun herr => absurd herr e.code_ne_zero, fun herr => absurd herr e.code_ne_zero, fun _ => rfl⟩
  · refine ⟨fun _ hinput => ?_, fun _ hexplicit => ?_, fun herr => absurd rfl herr⟩
    · simp [slice_responseFrame_timestamp, State.timestamp, hinput]
    · simp [slice_responseFrame_timestamp, State.timestamp, hexplicit]

/-! ### the frame (R116) -/

/-- Both ends of BUILD_RSP only set OUT_BUF, OUT_LEN, ERR and the count of time samples (R116). -/
theorem execBuildRsp_next_eq {s t : State} (h : execBuildRsp s = .next t) :
    ∃ out len c n, t = { (s.setOut out len).setErr c with nowDraws := n } := by
  rcases execBuildRsp_next h with ⟨e, -, rfl⟩ | ⟨-, echo, -, rfl⟩
  · exact ⟨Vector.replicate 23 0, 0, e.code, s.nowDraws, rfl⟩
  · rw [State.sampleTime_eq]
    exact ⟨_, _, _, _, rfl⟩

/-- Settles O34: none of these four holds a byte of IN_BUF or REQ_BUF. -/
theorem buildRspFrame : Obligations.BuildRspFrame := by
  intro s t h
  obtain ⟨out, len, c, n, rfl⟩ := execBuildRsp_next_eq h
  exact ⟨rfl, fun i => rfl, fun i => rfl⟩

/-! ### what BUILD_RSP reads (R106, R118) -/

/-- A byte read of REQ_BUF depends on that byte alone. -/
theorem State.readByte_reqBuf_congr {s s' : State} {i : Nat} (h : s'.reqBuf.read i = s.reqBuf.read i) :
    s'.readByte .reqBuf i = s.readByte .reqBuf i := by
  simp only [State.readByte, h]

/-- Settles O35: the checks read only elements that are kept, and the echoed byte is the same, so both states come to the
same end. -/
theorem buildRspReadsOnlyItsInputs : Obligations.BuildRspReadsOnlyItsInputs := by
  intro s plen ridx csum m m' n l out e hecho
  simp only [exec]
  split
  next t ht =>
    rcases execBuildRsp_next ht with ⟨err, herr, rfl⟩ | ⟨hchecks, echo, hread, rfl⟩
    · exact execBuildRsp_of_buildError herr
    · refine (execBuildRsp_of_ready (echo := echo) ?_ ?_).trans ?_
      · exact hchecks
      · exact hecho.trans hread
      · rw [State.sampleTime_eq, State.sampleTime_eq]
        rfl
  next f hf =>
    obtain ⟨hchecks, hread⟩ := execBuildRsp_fault hf
    exact execBuildRsp_of_readByte_error hchecks ((State.readByte_reqBuf_congr hecho).trans hread)
  next r hr => exact execBuildRsp_not_refused hr

end Sys2Proof.Machine
end

section
/-! PROOFS. The statements on 60_exceptions: the error codes and their causes (R121 to R126), and that ERR reports the most
recent command only (R127). -/

namespace Sys2Proof.Machine

/-! ### a word that is no command (R126) -/

/-- A word that decodes to no command raises ILLEGAL_COMMAND, which changes ERR alone (R126). -/
theorem runCommand_of_forall_decode_ne {w : Word} (h : ∀ i, decode w ≠ .ok i) (s : State) :
    runCommand w s = .next (s.setErr 5) := by
  refine runCommand_of_not_legalWord ?_ s
  rw [← Bool.not_eq_true, ← exists_decode_iff_legalWord]
  exact not_exists.2 h

/-- Settles O6: the step performs the write it faces, which reaches CMD and there only raises ILLEGAL_COMMAND. -/
theorem illegalCommandChangesOnlyErr : Obligations.IllegalCommandChangesOnlyErr := by
  intro s w hx hw
  calc step s = busWrite 0 4 w s.advance := step_of_faces hx
    _ = runCommand w s.advance := busWrite_cmd w _
    _ = .next (s.advance.setErr 5) := runCommand_of_forall_decode_ne hw _

/-! ### the error a word raises, as a function of the word and the state (R121) -/

/-- The error a command raises, if it raises one (R122 to R125). -/
def commandError (s : State) : Instr → Option HwError
  | .parseHdr => if s.inLen < 11 then some .formatError else none
  | .csumClr | .csumAdd _ | .csumIn => none
  | .buildRsp => buildError s

/-- The error a word written to CMD raises, if it raises one (R122 to R126). -/
def wordError (s : State) (w : Word) : Option HwError :=
  match decode w with
  | .ok i => commandError s i
  | .error _ => some .illegalCommand

/-- The code in ERR after an error, or after none (R121). -/
def errCode : Option HwError → BitVec 4
  | none => okCode
  | some e => e.code

/-- A command that completes leaves the code of the error it raises, and 0 where it raises none (R121, R127). -/
theorem exec_next_err {i : Instr} {s t : State} (h : exec i s = .next t) : t.err = errCode (commandError s i) := by
  cases i with
  | parseHdr =>
    rcases execParseHdr_next h with ⟨hshort, rfl⟩ | ⟨hlong, hd, -, rfl⟩
    · simp only [commandError, if_pos hshort]
      rfl
    · simp only [commandError, if_neg (Nat.not_lt.2 hlong)]
      rfl
  | csumClr | csumAdd imm => cases h; rfl
  | csumIn => obtain ⟨bs, -, rfl⟩ := execCsumIn_next h; rfl
  | buildRsp =>
    rcases execBuildRsp_next h with ⟨e, he, rfl⟩ | ⟨hnone, echo, -, rfl⟩
    · simp only [commandError, he]
      rfl
    · simp only [commandError, hnone]
      rfl

/-- A word that completes as a command leaves the code of the error it raises, and 0 where it raises none (R121). -/
theorem runCommand_next_err {w : Word} {s t : State} (h : runCommand w s = .next t) : t.err = errCode (wordError s w) := by
  rcases runCommand_next h with ⟨i, hd, he⟩ | ⟨⟨r, hd⟩, rfl⟩
  · simp only [wordError, hd]
    exact exec_next_err he
  · simp only [wordError, hd]
    rfl

/-! ### each code stands for one error (R121) -/

theorem HwError.code_injective : Function.Injective HwError.code := by
  intro e e'
  cases e <;> cases e' <;> decide

/-- The code of an error is left by that error only. -/
theorem errCode_eq_code_iff {o : Option HwError} {e : HwError} : errCode o = e.code ↔ o = some e := by
  cases o with
  | none => simpa [errCode, okCode] using e.code_ne_zero.symm
  | some e' => simpa [errCode] using HwError.code_injective.eq_iff

/-- Codes 6 to 15 are never produced. -/
theorem errCode_toNat_le (o : Option HwError) : (errCode o).toNat ≤ 5 := by
  cases o with
  | none => decide
  | some e => cases e <;> decide

/-! ### the causes of the errors (R122 to R126) -/

/-- The causes of the table of R121: when each error is raised by a word written to CMD. -/
def HwError.Cause (s : State) (w : Word) : HwError → Prop
  | .formatError => decode w = .ok .parseHdr ∧ s.inLen < 11
  | .argumentError => decode w = .ok .buildRsp ∧ s.hdrValid = true ∧ s.reqLen = 0
  | .noHeader => decode w = .ok .buildRsp ∧ s.hdrValid = false
  | .respTypeRange => decode w = .ok .buildRsp ∧ s.hdrValid = true ∧ 1 ≤ s.reqLen ∧ s.hdrType.toNat < 0x30
  | .illegalCommand => ∀ i, decode w ≠ .ok i

/-- Only PARSE_HDR and BUILD_RSP raise errors. -/
theorem commandError_eq_some {i : Instr} {s : State} {e : HwError} (h : commandError s i = some e) :
    (i = .parseHdr ∧ s.inLen < 11 ∧ e = .formatError) ∨ (i = .buildRsp ∧ buildError s = some e) := by
  cases i with
  | parseHdr =>
    obtain ⟨hlen, he⟩ : s.inLen < 11 ∧ .formatError = e := by simpa [commandError] using h
    exact .inl ⟨rfl, hlen, he.symm⟩
  | csumClr | csumAdd imm | csumIn => cases h
  | buildRsp => exact .inr ⟨rfl, h⟩

/-- An error raised by a word has its cause. -/
theorem cause_of_wordError {s : State} {w : Word} {e : HwError} (h : wordError s w = some e) : e.Cause s w := by
  match hd : decode w with
  | .ok i =>
    simp only [wordError, hd] at h
    rcases commandError_eq_some h with ⟨rfl, hlen, rfl⟩ | ⟨rfl, hbuild⟩
    · exact ⟨hd, hlen⟩
    · rcases buildError_eq_some hbuild with ⟨rfl, hvalid⟩ | ⟨rfl, hvalid, hlen⟩ | ⟨rfl, hvalid, hlen, htype⟩
      · exact ⟨hd, hvalid⟩
      · exact ⟨hd, hvalid, hlen⟩
      · exact ⟨hd, hvalid, Nat.pos_of_ne_zero hlen, htype⟩
  | .error r =>
    simp only [wordError, hd] at h
    cases h
    intro i hi
    cases hd.symm.trans hi

/-- Where an error has its cause, the word raises that error. -/
theorem wordError_of_cause {s : State} {w : Word} {e : HwError} (h : e.Cause s w) : wordError s w = some e := by
  cases e with
  | formatError =>
    obtain ⟨hd, hlen⟩ := h
    simp only [wordError, hd, commandError, if_pos hlen]
  | argumentError =>
    obtain ⟨hd, hvalid, hlen⟩ := h
    simp only [wordError, hd, commandError, buildError_of_no_payload hvalid hlen]
  | noHeader =>
    obtain ⟨hd, hvalid⟩ := h
    simp only [wordError, hd, commandError, buildError_of_no_header hvalid]
  | respTypeRange =>
    obtain ⟨hd, hvalid, hlen, htype⟩ := h
    simp only [wordError, hd, commandError, buildError_of_low_type hvalid hlen htype]
  | illegalCommand =>
    match hd : decode w with
    | .ok i => exact absurd hd (h i)
    | .error r => simp only [wordError, hd]

/-- Settles O39: the code left is that of the error the word raises, and it raises the error whose cause is met. -/
theorem errorCodesAndTheirCauses : Obligations.ErrorCodesAndTheirCauses := by
  intro w s t h
  have herr : t.err = errCode (wordError s w) := runCommand_next_err h
  have hcause (e : HwError) : t.err = e.code ↔ e.Cause s w := by
    rw [herr, errCode_eq_code_iff]
    exact ⟨cause_of_wordError, wordError_of_cause⟩
  exact ⟨hcause .formatError, hcause .argumentError, hcause .noHeader, hcause .respTypeRange, hcause .illegalCommand,
    herr ▸ errCode_toNat_le _⟩

/-! ### the old value of ERR (R127) -/

/-- Taking an error overwrites ERR, whatever it held (R127). -/
theorem State.takeError_setErr (s : State) (c : BitVec 4) (e : HwError) : (s.setErr c).takeError e = s.takeError e := by
  cases e <;> rfl

/-- No byte read looks at ERR. -/
theorem State.readByte_setErr (s : State) (c : BitVec 4) (e : Buf) (i : Nat) :
    (s.setErr c).readByte e i = s.readByte e i := rfl

theorem State.readBytes_setErr (s : State) (c : BitVec 4) (e : Buf) (o n : Nat) :
    (s.setErr c).readBytes e o n = s.readBytes e o n := by
  induction n generalizing o with
  | zero => rfl
  | succ n ih => simp only [State.readBytes, State.readByte_setErr, ih]

theorem execParseHdr_setErr (s : State) (c : BitVec 4) : execParseHdr (s.setErr c) = execParseHdr s := by
  have hread : (s.setErr c).readHeader = s.readHeader := State.readHeader_congr fun _ _ => rfl
  simp only [execParseHdr, State.takeError_setErr, hread, State.setErr_inLen]
  rfl

theorem execCsumIn_setErr (s : State) (c : BitVec 4) : execCsumIn (s.setErr c) = execCsumIn s := by
  simp only [execCsumIn, State.readBytes_setErr, State.setErr_inLen]
  rfl

theorem execBuildRsp_setErr (s : State) (c : BitVec 4) : execBuildRsp (s.setErr c) = execBuildRsp s := by
  have hchecks : buildError (s.setErr c) = buildError s := rfl
  simp only [execBuildRsp, hchecks, State.readByte_setErr, State.takeError_setErr, State.sampleTime_eq]
  rfl

/-- No command's outcome depends on the old value of ERR (R127). -/
theorem exec_setErr (i : Instr) (s : State) (c : BitVec 4) : exec i (s.setErr c) = exec i s := by
  cases i with
  | parseHdr => exact execParseHdr_setErr s c
  | csumClr | csumAdd imm => rfl
  | csumIn => exact execCsumIn_setErr s c
  | buildRsp => exact execBuildRsp_setErr s c

/-- No word's outcome depends on the old value of ERR (R127). -/
theorem runCommand_setErr (w : Word) (s : State) (c : BitVec 4) : runCommand w (s.setErr c) = runCommand w s := by
  simp only [runCommand, exec_setErr, State.takeError_setErr]

/-- Settles O40: an error's effects and a success both overwrite ERR, and nothing reads it. -/
theorem errReportsTheMostRecentCommandOnly : Obligations.ErrReportsTheMostRecentCommandOnly := by
  refine ⟨fun w s e => runCommand_setErr w s e, fun i s t h hparse hbuild => ?_⟩
  have hnone : commandError s i = none := by
    cases i with
    | parseHdr => exact if_neg fun hlen => hparse ⟨rfl, hlen⟩
    | csumClr | csumAdd imm | csumIn => rfl
    | buildRsp =>
      refine buildError_eq_none.2 ?_
      simpa using hbuild
  rw [exec_next_err h, hnone]
  rfl

end Sys2Proof.Machine
end

section
/-! PROOFS. The statements on the decoder (30_encoding R62, R63): that it inverts the encoder, the table of words
(95_test_vectors 2.4), and the opcode table's words. -/

namespace Sys2Proof.Machine

open Sys2Proof.Safety

/-- Settles O1: `encode_of_decode` and `decode_encode` are its two directions. -/
theorem decodeInvertsEncode : Obligations.DecodeInvertsEncode := by
  refine fun w i => ⟨encode_of_decode, ?_⟩
  rintro rfl
  exact decode_encode i

/-- Settles O3: the legal words of the table are the encoder's, and the illegal ones fail R65. -/
theorem decodeTableWordsDecode : Obligations.DecodeTableWordsDecode := by
  refine ⟨decode_encode .parseHdr, decode_encode .csumClr, decode_encode (.csumAdd 0x00), decode_encode (.csumAdd 0xFF),
    decode_encode .csumIn, decode_encode .buildRsp, fun w hw i hd => ?_⟩
  have hlegal : legalWord w = true := (exists_decode_iff_legalWord w).1 ⟨i, hd⟩
  have hillegal : ∀ w ∈ [0x00000000#32, 0x00000006#32, 0x000000FF#32, 0x00000101#32, 0x00010003#32, 0x80000005#32],
      legalWord w = false := by
    simp [legalWord, opSelects, rsvClear, immAllowed]
  cases (hillegal w hw).symm.trans hlegal

/-- A table word that decodes is the command's word (R61). -/
theorem ofNat_eq_encode_of_decodeTableWord {nbits w : Nat} {i : Instr} (h : decodeTableWord nbits w = some i) :
    BitVec.ofNat 32 (w % 2 ^ nbits) = encode i := by
  unfold decodeTableWord at h
  split at h
  · match hd : decode (BitVec.ofNat 32 (w % 2 ^ nbits)) with
    | .ok j =>
      rw [hd] at h
      cases h
      exact (encode_of_decode hd).symm
    | .error e =>
      rw [hd] at h
      cases h
  · cases h

/-- Settles O5: the one input of the host's list is the write of the command's word to CMD. -/
theorem fetchWordRunsTheTableCommand : Obligations.FetchWordRunsTheTableCommand := by
  intro s nbits w i hu h
  have hx : Faces (s.withFetchWord nbits w) (.access (.write 0 4 (encode i))) := by
    refine ⟨hu, ?_⟩
    rw [← ofNat_eq_encode_of_decodeTableWord h]
    rfl
  obtain ⟨hrun, -⟩ := stepRunsDecodedCommand
  rw [hrun _ _ i hx (decode_encode i), State.withFetchWord, ofNat_eq_encode_of_decodeTableWord h]

end Sys2Proof.Machine
end

section
/-! PROOFS. The statements on the run as a whole: the host's index (10_state R19), the marks (60_exceptions R140) and reset
(70_reset_and_hazards R141, R142). -/

namespace Sys2Proof.Machine

open Sys2Proof.Safety

/-! ### the host's index (R19) -/

/-- Settles O7: the index moves before the input is performed, and no input touches it or the list. -/
theorem indexAdvancesByOnePerAccess : Obligations.IndexAdvancesByOnePerAccess := by
  refine ⟨fun s t x hx h => ?_, fun s ⟨hf, hr⟩ hend => ?_⟩
  · rw [step_of_faces hx] at h
    obtain ⟨hprogram, hpc, -, -⟩ := perform_keeps_host h
    exact ⟨hpc, hprogram⟩
  · have hnone : s.program[s.pc]? = none := List.getElem?_eq_none hend
    simp only [step, hf, hr, hnone]

/-! ### the marks (R140) -/

theorem step_of_faultMark {s : State} {f : Fault} (h : s.faultMark = some f) : step s = .fault f := by
  simp only [step, h]

theorem step_of_refusedMark {s : State} {r : Refusal} (hf : s.faultMark = none) (hr : s.refusedMark = some r) :
    step s = .refused r := by
  simp only [step, hf, hr]

/-- A step of a run with its marks sets again the fault mark that is there. -/
theorem markedStep_of_faultMark {s : State} {f : Fault} (h : s.faultMark = some f) : markedStep s = s := by
  simp only [markedStep, step_of_faultMark h, ← h]

/-- A step of a run with its marks sets again the refused mark that is there. -/
theorem markedStep_of_refusedMark {s : State} {r : Refusal} (hf : s.faultMark = none) (hr : s.refusedMark = some r) :
    markedStep s = s := by
  simp only [markedStep, step_of_refusedMark hf hr, ← hr]

/-- A state that one step leaves as it is stays so for any number of steps. -/
theorem markedRun_of_markedStep {s : State} (h : markedStep s = s) (k : Nat) : markedRun k s = s := by
  induction k with
  | zero => rfl
  | succ k ih => rw [markedRun, h, ih]

/-- An input is performed in an unmarked state only, and sets no mark where it completes. -/
theorem unmarked_of_step_next {s t : State} (h : step s = .next t) : Unmarked s ∧ Unmarked t := by
  obtain ⟨hu, ⟨-, rfl⟩ | ⟨x, -, hp⟩⟩ := step_next h
  · exact ⟨hu, hu⟩
  · obtain ⟨-, -, hf, hr⟩ := perform_keeps_host hp
    exact ⟨hu, hf.trans hu.1, hr.trans hu.2⟩

/-- Settles O8: a marked state makes no step, so its marked step leaves it as it is. -/
theorem marksAreNeverCleared : Obligations.MarksAreNeverCleared := by
  refine ⟨fun s hm t h => hm (unmarked_of_step_next h).1, fun s t h => (unmarked_of_step_next h).2, fun k s f hf => ?_,
    fun k s r hf hr => markedRun_of_markedStep (markedStep_of_refusedMark hf hr) k⟩
  rw [markedRun_of_markedStep (markedStep_of_faultMark hf) k, hf]

/-! ### reset (R141, R142) -/

/-- Settles O46: the reset input gives the block the elements of the state after reset, and the marks it keeps are clear. -/
theorem resetGivesEveryElementItsValue : Obligations.ResetGivesEveryElementItsValue := by
  refine ⟨fun i => ⟨rfl, rfl⟩, by decide, fun s hx => ?_⟩
  obtain ⟨hf, hr⟩ := hx.1
  rw [step_of_faces hx, perform, State.resetBlock, State.advance_faultMark, State.advance_refusedMark, hf, hr]
  rfl

end Sys2Proof.Machine
end

section
/-! PROOFS. The memories as data: runs of stored bytes, which a 4-byte write (20_memory R46) and LOAD_IN (30_encoding R76)
leave, and that the canonical form is one list for each content (log 6). -/

namespace Sys2Proof.Machine

/-! ### runs of bytes (R46, R50) -/

/-- Consecutive bytes stored in order, from index i on. -/
def Memory.writeBytes (m : Memory) (i : Nat) : List Byte → Memory
  | [] => m
  | b :: bs => Memory.writeBytes (m.write i b) (i + 1) bs

/-- Storing a run leaves the bytes before it and behind it alone (R50). -/
theorem Memory.read_writeBytes_outside {m : Memory} {i j : Nat} {bs : List Byte} (h : j < i ∨ i + bs.length ≤ j) :
    (m.writeBytes i bs).read j = m.read j := by
  induction bs generalizing m i with
  | nil => rfl
  | cons b bs ih =>
    rw [List.length_cons] at h
    rw [Memory.writeBytes, ih (by omega), Memory.read_write_other _ _ (by omega)]

/-- The stored run reads back (R50). -/
theorem Memory.read_writeBytes_inside {m : Memory} {i k : Nat} {bs : List Byte} (h : k < bs.length) :
    (m.writeBytes i bs).read (i + k) = bs[k]? := by
  induction bs generalizing m i k with
  | nil => cases h
  | cons b bs ih =>
    rw [Memory.writeBytes]
    cases k with
    | zero =>
      rw [Memory.read_writeBytes_outside (by omega), Nat.add_zero, Memory.read_write_same, List.getElem?_cons_zero]
    | succ k =>
      rw [show i + (k + 1) = i + 1 + k by omega, ih (by simpa using h), List.getElem?_cons_succ]

/-- A write of four bytes to IN_BUF stores the run of the word's bytes, lowest first (R12, R46). -/
theorem State.writeWord_inBuf (s : State) (i : Nat) (v : Word) :
    s.writeWord .inBuf i v = .next { s with inBuf := s.inBuf.writeBytes i (encLe32 v) } := by
  simp only [State.writeWord, State.writeInBuf, encLe32, Memory.writeBytes]

/-- A write of four bytes to REQ_BUF stores the run of the word's bytes, lowest first (R12, R46). -/
theorem State.writeWord_reqBuf (s : State) (i : Nat) (v : Word) :
    s.writeWord .reqBuf i v = .next { s with reqBuf := s.reqBuf.writeBytes i (encLe32 v) } := by
  simp only [State.writeWord, State.writeReqBuf, encLe32, Memory.writeBytes]

/-- Byte k of a word as a number (R7). -/
theorem byteOf_eq_ofNat (v : Word) (k : Nat) : byteOf v k = BitVec.ofNat 8 (v.toNat / 256 ^ k) := by
  apply BitVec.eq_of_toNat_eq
  rw [byteOf, BitVec.extractLsb'_toNat, Nat.shiftRight_eq_div_pow, BitVec.toNat_ofNat, Nat.pow_mul]

/-- Byte 0 of a byte put into a word is that byte. -/
theorem byteOf_setWidth (b : Byte) : byteOf (b.setWidth 32) 0 = b := by
  apply BitVec.eq_of_toNat_eq
  have hb := b.isLt
  rw [byteOf_eq_ofNat, BitVec.toNat_ofNat, BitVec.toNat_setWidth]
  omega

/-- Byte k of the run a word is stored as. -/
theorem encLe32_getElem? (v : Word) {k : Nat} (h : k < 4) :
    (encLe32 v)[k]? = some (BitVec.ofNat 8 (v.toNat / 256 ^ k)) := by
  rw [← byteOf_eq_ofNat]
  interval_cases k <;> rfl

/-- A stored word reads back byte by byte (R46, R50). -/
theorem Memory.read_writeBytes_encLe32 (m : Memory) (i : Nat) (v : Word) {k : Nat} (h : k < 4) :
    (m.writeBytes i (encLe32 v)).read (i + k) = some (BitVec.ofNat 8 (v.toNat / 256 ^ k)) := by
  rw [Memory.read_writeBytes_inside h, encLe32_getElem? v h]

/-- Storing a word leaves every byte but its four alone (R50). -/
theorem Memory.read_writeBytes_encLe32_outside (m : Memory) (v : Word) {i j : Nat} (h : j < i ∨ i + 3 < j) :
    (m.writeBytes i (encLe32 v)).read j = m.read j := by
  refine Memory.read_writeBytes_outside ?_
  simp only [encLe32, List.length_cons, List.length_nil]
  omega

/-! ### the canonical form (log 6) -/

/-- Memories in canonical form hold the same cells where they read alike, so they are the same list (log 6). -/
theorem Memory.eq_of_read_eq {m m' : Memory} (h : m.wf) (h' : m'.wf) (hread : ∀ i, m.read i = m'.read i) : m = m' := by
  have hnodup {m : Memory} (h : m.wf) : m.Nodup := by
    refine List.Pairwise.imp ?_ h
    rintro c d hlt rfl
    exact Nat.lt_irrefl _ hlt
  have hmem (c : Host.Cell) : c ∈ m ↔ c ∈ m' := by
    obtain ⟨i, b⟩ := c
    rw [← Memory.read_eq_some_iff h, ← Memory.read_eq_some_iff h', hread]
  have hperm : m.Perm m' := (List.perm_ext_iff_of_nodup (hnodup h) (hnodup h')).2 hmem
  exact hperm.eq_of_pairwise (fun c d _ _ hcd hdc => absurd hdc (Nat.lt_asymm hcd)) h h'

/-- Settles O16: reading alike is having the same cells, and rising indexes leave one order for them. -/
theorem canonicalMemoriesReadingAlikeAreEqual : Obligations.CanonicalMemoriesReadingAlikeAreEqual :=
  fun _ _ => Memory.eq_of_read_eq

end Sys2Proof.Machine
end

section
/-! PROOFS. The statements on the host's accesses that complete: register reads and writes (10_state sections 3 to 7), window
reads and writes (20_memory R46, R50), and LOAD_IN, which is made of such writes (30_encoding R76). -/

namespace Sys2Proof.Machine

open Sys2Proof.Safety

/-! ### what a write reaches -/

/-- A step that faces a write is the write to what it reaches. -/
theorem step_write_of_locate {s : State} {a : Offset} {n : Nat} {v : Word} {tg : Target}
    (hx : Faces s (.access (.write a n v))) (hl : locate Config.inCap Config.reqCap a.toNat n = .ok tg) :
    step s = s.advance.writeTarget tg v :=
  (step_of_faces hx).trans (busWrite_of_locate hl)

/-- The offset of the k-th register is 4 k (R22). -/
theorem locate_register {k : Nat} {r : Reg} (h : registerMap[k]? = some r) :
    locate Config.inCap Config.reqCap (BitVec.ofNat 13 (4 * k)).toNat 4 = .ok (.reg r) := by
  have hk : k < 13 := (List.getElem?_eq_some_iff.1 h).1
  refine locate_reg h ?_
  rw [BitVec.toNat_ofNat]
  omega

/-- A 1-byte access to index i of a window reaches that byte (R45). -/
theorem locate_byte_of_base {a i : Nat} {e : Buf} (ha : a = windowBase e + i) (hi : i < windowSize e) :
    locate Config.inCap Config.reqCap a 1 = .ok (.byte e i) :=
  locate_byte (windowByte_eq_some_iff.2 ⟨ha, hi⟩)

/-- The windows begin at multiples of 4, so offsets are aligned as indexes are (R22). -/
theorem locate_word_of_index {a i : Nat} {e : Buf} (ha : a = windowBase e + i) (halign : i % 4 = 0)
    (hi : i + 3 < windowSize e) : locate Config.inCap Config.reqCap a 4 = .ok (.word e i) := by
  have hbase : windowBase e % 4 = 0 := by cases e <;> rfl
  exact locate_word_of_base ha (by omega) hi

/-! ### register reads (R23 to R39) -/

/-- STATUS as the sum of its fields (R24). -/
theorem State.statusWord_eq (s : State) :
    s.statusWord = BitVec.ofNat 32
      (s.err.toNat + 256 * (if s.hdrValid then 1 else 0) + 512 * (if s.outLen = 23 then 1 else 0)) := by
  have hfields : ∀ (out hdr : Bool) (err : BitVec 4),
      (0#22 ++ BitVec.ofBool out ++ BitVec.ofBool hdr ++ 0#4 ++ err : BitVec (22 + 1 + 1 + 4 + 4)) =
        BitVec.ofNat 32 (err.toNat + 256 * (if hdr then 1 else 0) + 512 * (if out then 1 else 0)) := by
    decide
  rw [State.statusWord, hfields]
  simp only [State.outValid, beq_iff_eq]

/-- TS_CTRL holds TS_EXPLICIT in bit 0 (R37). -/
theorem State.tsCtrlWord_eq (s : State) : s.tsCtrlWord = if s.tsExplicit then 1 else 0 := by
  unfold State.tsCtrlWord
  cases s.tsExplicit <;> rfl

/-- Settles O11: the list of values is the register map with each register read. -/
theorem registerReadValues : Obligations.RegisterReadValues := by
  intro s k v hv hx
  have hvalue : (registerMap.map s.readReg)[k]? = some v := by
    rw [← hv, ← State.statusWord_eq, ← State.tsCtrlWord_eq]
    rfl
  rw [List.getElem?_map] at hvalue
  obtain ⟨r, hr, rfl⟩ := Option.map_eq_some_iff.1 hvalue
  exact step_read_of_locate hx (locate_register hr) rfl

/-! ### register writes (R26, R35 to R37) -/

/-- Settles O12: each offset is that of its register, and the write sets the register's element. -/
theorem registerWriteEffects : Obligations.RegisterWriteEffects := by
  refine fun s v => ⟨fun hx => ?_, fun hx => ?_, fun hx => ?_, fun hx => ?_⟩
  · exact step_write_of_locate hx (locate_register (k := 2) rfl)
  · exact step_write_of_locate hx (locate_register (k := 3) rfl)
  · exact step_write_of_locate hx (locate_register (k := 4) rfl)
  · have hbit : v.getLsbD 0 = decide (v.toNat % 2 = 1) := Nat.testBit_zero _
    rw [← hbit]
    exact step_write_of_locate hx (locate_register (k := 5) rfl)

/-! ### window reads (R46) -/

/-- A byte read answers what the buffer holds (R51). -/
theorem State.readByte_of_content {s : State} {e : Buf} {i : Nat} {b : Byte} (h : content s e i = some b) :
    s.readByte e i = .ok b := by
  cases e with
  | inBuf => exact State.readByte_inBuf_ok.2 h
  | reqBuf => exact State.readByte_reqBuf_ok.2 h
  | outBuf =>
    change s.outBuf[i]? = some b at h
    simp only [State.readByte, h]

/-- Settles O13: the read reaches the byte or the four bytes, and they are written. -/
theorem windowReadsAreLittleEndian : Obligations.WindowReadsAreLittleEndian := by
  refine fun s e i a ha => ⟨fun b hi hb hx => ?_, fun b0 b1 b2 b3 halign hi h0 h1 h2 h3 hx => ?_⟩
  · have hread : s.readTarget (.byte e i) = .ok (BitVec.ofNat 32 b.toNat) := by
      rw [State.readTarget, State.readByte_of_content hb, bind_ok, BitVec.ofNat_toNat]
    exact step_read_of_locate hx (locate_byte_of_base ha hi) hread
  · have hread : s.readLe32 e i = .ok (le32 b0 b1 b2 b3) :=
      State.readLe32_ok.2 ⟨b0, b1, b2, b3, State.readByte_of_content h0, State.readByte_of_content h1,
        State.readByte_of_content h2, State.readByte_of_content h3, rfl⟩
    rw [le32_eq_ofNat] at hread
    exact step_read_of_locate hx (locate_word_of_index ha halign hi) hread

/-! ### window writes (R46, R50) -/

/-- The byte a 1-byte write stores, as a number: bits 7 to 0 of the bus value (R46). -/
theorem byteOf_zero_eq_ofNat (v : Word) : byteOf v 0 = BitVec.ofNat 8 v.toNat := by
  rw [byteOf_eq_ofNat, Nat.pow_zero, Nat.div_one]

/-- A byte stored to a memory reads back, and every other byte reads as before (R50). -/
theorem Memory.write_byteOf_spec (m : Memory) (i : Nat) (v : Word) :
    (m.write i (byteOf v 0)).read i = some (BitVec.ofNat 8 v.toNat) ∧
      ∀ j, j ≠ i → (m.write i (byteOf v 0)).read j = m.read j :=
  ⟨by rw [Memory.read_write_same, byteOf_zero_eq_ofNat], fun _ hj => Memory.read_write_other _ _ hj⟩

/-- A word stored to a memory reads back byte by byte, and every other byte reads as before (R46, R50). -/
theorem Memory.writeBytes_encLe32_spec (m : Memory) (i : Nat) (v : Word) :
    (∀ k < 4, (m.writeBytes i (encLe32 v)).read (i + k) = some (BitVec.ofNat 8 (v.toNat / 256 ^ k))) ∧
      ∀ j, (j < i ∨ i + 3 < j) → (m.writeBytes i (encLe32 v)).read j = m.read j :=
  ⟨fun _ hk => m.read_writeBytes_encLe32 i v hk, fun _ hj => m.read_writeBytes_encLe32_outside v hj⟩

/-- Settles O15: the write reaches the byte or the four bytes, and stores its byte or the run of its bytes there. -/
theorem windowWritesStoreTheirBytes : Obligations.WindowWritesStoreTheirBytes := by
  refine fun s v i a => ⟨fun ha hi hx => ?_, fun ha hi hx => ?_, fun ha halign hi hx => ?_, fun ha halign hi hx => ?_⟩
  · have hstep := step_write_of_locate hx (locate_byte_of_base (e := .inBuf) ha hi)
    exact ⟨_, hstep, s.inBuf.write_byteOf_spec i v⟩
  · have hstep := step_write_of_locate hx (locate_byte_of_base (e := .reqBuf) ha hi)
    exact ⟨_, hstep, s.reqBuf.write_byteOf_spec i v⟩
  · have hstep := step_write_of_locate hx (locate_word_of_index (e := .inBuf) ha halign hi)
    exact ⟨_, hstep.trans (s.advance.writeWord_inBuf i v), s.inBuf.writeBytes_encLe32_spec i v⟩
  · have hstep := step_write_of_locate hx (locate_word_of_index (e := .reqBuf) ha halign hi)
    exact ⟨_, hstep.trans (s.advance.writeWord_reqBuf i v), s.reqBuf.writeBytes_encLe32_spec i v⟩

/-! ### LOAD_IN (30_encoding R76) -/

/-- Inputs that complete are followed by the rest of the list. -/
theorem performAll_append {xs ys : List Input} {s t : State} (h : performAll xs s = .next t) :
    performAll (xs ++ ys) s = performAll ys t := by
  induction xs generalizing s with
  | nil => cases h; rfl
  | cons x xs ih =>
    rw [performAll] at h
    rw [List.cons_append, performAll]
    split at h
    next => exact ih h
    next => cases h
    next => cases h

/-- `WR8 IN_BUF+i, b` stores b at index i (R75). -/
theorem perform_wr8Input_inBuf (s : State) {i : Nat} (b : Byte) (hi : i < Config.inCap) :
    perform (wr8Input (BitVec.ofNat 13 (0x1000 + i)) b) s = .next (s.writeInBuf i b) := by
  have hcap := Config.inCap_le
  have ha : (BitVec.ofNat 13 (0x1000 + i)).toNat = windowBase .inBuf + i := by
    rw [BitVec.toNat_ofNat, windowBase]
    omega
  refine (busWrite_of_locate (locate_byte_of_base ha hi)).trans ?_
  rw [State.writeTarget, byteOf_setWidth, State.writeByte]

/-- `WR32 IN_LEN, n` stores n where it is no larger than IN_CAP (R26, R75). -/
theorem perform_wr32Input_inLen (s : State) {n : Nat} (hn : n ≤ Config.inCap) :
    perform (wr32Input 0x0008 (BitVec.ofNat 32 n)) s = .next (s.setInLen n) := by
  have hcap := Config.inCap_le
  have hlen : clampLen Config.inCap (BitVec.ofNat 32 n) = n := by
    rw [clampLen, BitVec.toNat_ofNat]
    omega
  refine (busWrite_of_locate (locate_register (k := 2) rfl)).trans ?_
  rw [State.writeTarget, State.writeReg, hlen]

/-- The byte writes of LOAD_IN store the run of its bytes (R76). -/
theorem performAll_stores (s : State) (i : Nat) (bs : List Byte) (h : i + bs.length ≤ Config.inCap) :
    performAll ((bs.zipIdx i).map fun p => wr8Input (BitVec.ofNat 13 (0x1000 + p.2)) p.1) s =
      .next { s with inBuf := s.inBuf.writeBytes i bs } := by
  induction bs generalizing s i with
  | nil => rfl
  | cons b bs ih =>
    rw [List.length_cons] at h
    rw [List.zipIdx_cons, List.map_cons, performAll, perform_wr8Input_inBuf s b (by omega)]
    exact ih _ _ (by omega)

/-- Settles O50: the byte writes store the run from index 0, and the last write sets IN_LEN to its length. -/
theorem loadInLoadsItsBytes : Obligations.LoadInLoadsItsBytes := by
  intro s bs h
  have hcap := Config.inCap_le
  have hexpand := storeBytes_eq (base := 0x1000) (k := 0) (bs := bs) (by omega)
  refine ⟨_, s.inBuf.writeBytes 0 bs, by rw [expand, hexpand]; rfl, ?_, fun k hk => ?_, fun k hk => ?_⟩
  · rw [performAll_append (performAll_stores s 0 bs (by omega)), performAll, perform_wr32Input_inLen _ h]
    rfl
  · simpa using Memory.read_writeBytes_inside (m := s.inBuf) (i := 0) hk
  · exact Memory.read_writeBytes_outside (by omega)

end Sys2Proof.Machine
end

section
/-! PROOFS. The statements on single commands: PARSE_HDR run twice (40_header_parser section 1), the laws of the checksum
and of its commands (41_checksum), BUILD_RSP's fault, frame and second run (42_response_builder section 1), and where
commands fault (60_exceptions section 2). -/

namespace Sys2Proof.Machine

open Sys2Proof.Safety

/-! ### PARSE_HDR run twice -/

/-- Settles O22: PARSE_HDR changes neither IN_LEN nor IN_BUF, so it comes to the same end again. -/
theorem parseHdrTwiceIsParseHdr : Obligations.ParseHdrTwiceIsParseHdr := by
  intro s t h
  rcases execParseHdr_next h with ⟨hshort, rfl⟩ | ⟨hlong, hd, hread, rfl⟩
  · exact execParseHdr_of_short hshort
  · exact execParseHdr_of_readHeader_ok hlong ((State.readHeader_congr fun _ _ => rfl).trans hread)

/-! ### the laws of the checksum (R94) -/

/-- The checksum of a sequence goes on from that of its first part (R94). -/
theorem checksum8_append_toNat (as bs : List Byte) :
    (checksum8 (as ++ bs)).toNat = ((checksum8 as).toNat + (bs.map BitVec.toNat).sum) % 256 := by
  rw [checksum8_toNat, checksum8_toNat, List.map_append, List.sum_append, Nat.mod_add_mod]

/-- Settles O27: each law is one of sums mod 256. -/
theorem checksumLaws : Obligations.ChecksumLaws := by
  refine ⟨csumFrom_nil 0, checksum8_toNat, fun as bs hperm => ?_, checksum8_append_toNat, fun as bs => ?_⟩
  · apply BitVec.eq_of_toNat_eq
    rw [checksum8_toNat, checksum8_toNat, (hperm.map BitVec.toNat).sum_eq]
  · apply BitVec.eq_of_toNat_eq
    rw [checksum8_append_toNat, checksum8_toNat ([checksum8 as] ++ bs)]
    rfl

/-- CSUM_ADD of each byte in turn is the loop of R94 over them (R98). -/
theorem execAll_csumAdd (s : State) (acc : Byte) (bs : List Byte) :
    execAll (bs.map .csumAdd) ((s.setCsumAcc acc).setErr 0) = .next ((s.setCsumAcc (csumFrom acc bs)).setErr 0) := by
  induction bs generalizing acc with
  | nil => rw [csumFrom_nil]; rfl
  | cons b bs ih => exact ih (csumStep acc b)

/-- Settles O29: CSUM_CLR starts the loop of R94 at 0, and both ways run it over the same bytes. -/
theorem checksumCommandsCompose : Obligations.ChecksumCommandsCompose := by
  intro s bs hlen hbytes
  refine ⟨?_, execAll_csumAdd s 0 bs⟩
  have hread : ((s.setCsumAcc 0).setErr 0).readBytes .inBuf 0 s.inLen = .ok bs :=
    State.readBytes_inBuf_of_read hlen hbytes
  simp only [execAll, exec, execCsumClr_eq, execCsumIn_of_readBytes_ok hread]
  rfl

/-! ### BUILD_RSP -/

/-- Settles O36: past the checks the echoed byte is the only one read. -/
theorem buildRspFaultsOnUnwrittenEcho : Obligations.BuildRspFaultsOnUnwrittenEcho := by
  refine fun s f => ⟨fun h => ?_, ?_⟩
  · obtain ⟨hchecks, hread⟩ := execBuildRsp_fault h
    obtain ⟨hvalid, hlen, htype⟩ := buildError_eq_none.1 hchecks
    exact ⟨hvalid, Nat.pos_of_ne_zero hlen, htype, State.readByte_error_iff.1 hread⟩
  · rintro ⟨hvalid, hlen, htype, hnone, rfl⟩
    exact execBuildRsp_of_readByte_error (buildError_eq_none.2 ⟨hvalid, Nat.ne_of_gt hlen, htype⟩)
      (State.readByte_reqBuf_none hnone)

/-- What BUILD_RSP builds for a type of at least 0x30 has the shape of a frame (R69, R117, R119). -/
theorem isFrame_responseFrame {type : Byte} (htype : 0x30 ≤ type.toNat) (qidx : Byte) (serial : Word) (echo : Byte)
    (ts : Word) : IsFrame (outBufOf (responseFrame type qidx serial echo ts) (responseFrame_length ..)) where
  marker := rfl
  length := ⟨rfl, rfl⟩
  zero := rfl
  type := by
    have hexact := responseType_toNat htype
    have hbyte : type.toNat < 256 := type.isLt
    rw [outBufOf_responseFrame_type]
    omega
  slots := rfl
  one := rfl
  opaqueBytes := ⟨rfl, rfl, rfl, rfl⟩
  checksum := rfl
  terminator := rfl

/-- After BUILD_RSP, OUT_BUF is zero with OUT_LEN 0, or a frame with the echoed byte at index 11 and OUT_LEN 23 (R119). -/
theorem execBuildRsp_next_out {s t : State} (h : execBuildRsp s = .next t) :
    (t.outLen = 0 ∧ t.outBuf = Vector.replicate 23 0) ∨
      (t.outLen = 23 ∧ IsFrame t.outBuf ∧ s.reqBuf.read 0 = some t.outBuf[11]) := by
  rcases execBuildRsp_next h with ⟨e, -, rfl⟩ | ⟨hchecks, echo, hecho, rfl⟩
  · exact .inl ⟨rfl, rfl⟩
  · obtain ⟨-, -, htype⟩ := buildError_eq_none.1 hchecks
    rw [State.sampleTime_eq]
    exact .inr ⟨rfl, isFrame_responseFrame htype .., hecho⟩

/-- Settles O37: the frame's marker, terminator and checksum are part of its shape. -/
theorem afterBuildRspOutBufIsAFrame : Obligations.AfterBuildRspOutBufIsAFrame := by
  intro s t h
  rcases execBuildRsp_next_out h with ⟨hlen, -⟩ | ⟨hlen, hframe, hecho⟩
  · exact ⟨.inr hlen, fun h23 => by omega⟩
  · exact ⟨.inl hlen, fun _ => ⟨hframe.marker, hframe.terminator, hecho, hframe.checksum⟩⟩

/-- With TS_EXPLICIT = 1 the frame holds TS_VAL, and no time is sampled (R113). -/
theorem execBuildRsp_of_ready_of_tsExplicit {s : State} {echo : Byte} (hts : s.tsExplicit = true)
    (hchecks : buildError s = none) (hecho : s.reqBuf.read 0 = some echo) :
    execBuildRsp s = .next ((s.setOut (outBufOf (responseFrame s.hdrType s.hdrQidx s.hdrSerial echo s.tsVal)
      (responseFrame_length ..)) 23).setErr 0) := by
  simp only [execBuildRsp_of_ready hchecks hecho, State.timestamp, State.sampleTime, State.setOut_tsExplicit, hts, if_true]

/-- Settles O38: BUILD_RSP changes none of its inputs, and with TS_EXPLICIT = 1 the timestamp is one of them. -/
theorem buildRspTwiceGivesTheSameFrame : Obligations.BuildRspTwiceGivesTheSameFrame := by
  intro s t hts h
  rcases execBuildRsp_next h with ⟨e, he, rfl⟩ | ⟨hchecks, echo, hecho, -⟩
  · exact execBuildRsp_of_buildError he
  · cases h.symm.trans (execBuildRsp_of_ready_of_tsExplicit hts hchecks hecho)
    exact execBuildRsp_of_ready_of_tsExplicit hts hchecks hecho

/-! ### where commands fault (60_exceptions section 2) -/

/-- Settles O41: the two commands with error checks read a byte only past them. -/
theorem faultsComeAfterTheErrorChecks : Obligations.FaultsComeAfterTheErrorChecks := by
  refine fun i s => ⟨fun f h => ?_, fun r => exec_not_refused⟩
  cases i with
  | parseHdr => exact .inl ⟨rfl, (execParseHdr_fault h).1⟩
  | csumClr | csumAdd imm => cases h
  | csumIn => exact .inr (.inl rfl)
  | buildRsp =>
    obtain ⟨hvalid, hlen, htype, -⟩ := (buildRspFaultsOnUnwrittenEcho s f).1 h
    exact .inr (.inr ⟨rfl, hvalid, hlen, htype⟩)

end Sys2Proof.Machine
end

section
/-! PROOFS. The statements on the machine as a whole: how long results last (70_reset_and_hazards section 3), that no
command writes the host's inputs and no byte becomes unwritten (10_state sections 4 and 6), and the invariant (10_state
section 2). -/

namespace Sys2Proof.Machine

open Sys2Proof.Safety

/-! ### how long results last -/

/-- OUT_BUF, OUT_LEN, CSUM_ACC and ERR, which only commands and reset change, are the same in two states. -/
def SameResults (s t : State) : Prop :=
  t.outBuf = s.outBuf ∧ t.outLen = s.outLen ∧ t.csumAcc = s.csumAcc ∧ t.err = s.err

/-- An input is reset, or a write to CMD that runs a command, or it keeps the results of commands (R49, R50). -/
theorem perform_next {x : Input} {s t : State} (h : perform x s = .next t) :
    x = .reset ∨ (∃ w, x = .access (.write 0 4 w) ∧ runCommand w s = .next t) ∨ SameResults s t := by
  match x with
  | .reset => exact .inl rfl
  | .access (.read a n) =>
    obtain ⟨tg, v, -, -, rfl⟩ := busRead_next h
    exact .inr (.inr ⟨rfl, rfl, rfl, rfl⟩)
  | .access (.write a n v) =>
    rcases busWrite_next h with ⟨rfl, rfl, h⟩ | rfl | rfl | rfl | rfl | ⟨i, -, rfl⟩ | ⟨i, -, rfl⟩ | ⟨i, -, rfl⟩ | ⟨i, -, rfl⟩
    · exact .inr (.inl ⟨v, rfl, h⟩)
    all_goals exact .inr (.inr (by simp [SameResults]))

/-- Every command but BUILD_RSP keeps OUT_BUF and OUT_LEN (R86, R102). -/
theorem exec_keeps_out {i : Instr} {s t : State} (hi : i ≠ .buildRsp) (h : exec i s = .next t) :
    t.outBuf = s.outBuf ∧ t.outLen = s.outLen := by
  cases i with
  | parseHdr => obtain ⟨hd, valid, c, rfl⟩ := execParseHdr_next_eq h; exact ⟨rfl, rfl⟩
  | csumClr | csumAdd imm => cases h; exact ⟨rfl, rfl⟩
  | csumIn => obtain ⟨bs, -, rfl⟩ := execCsumIn_next h; exact ⟨rfl, rfl⟩
  | buildRsp => exact absurd rfl hi

/-- Every command but the three checksum commands keeps CSUM_ACC (R86, R116). -/
theorem exec_keeps_csumAcc {i : Instr} {s t : State} (hi : ∀ imm, ¬ (i = .csumClr ∨ i = .csumIn ∨ i = .csumAdd imm))
    (h : exec i s = .next t) : t.csumAcc = s.csumAcc := by
  cases i with
  | parseHdr => obtain ⟨hd, valid, c, rfl⟩ := execParseHdr_next_eq h; rfl
  | csumClr => exact absurd (.inl rfl) (hi 0)
  | csumAdd imm => exact absurd (.inr (.inr rfl)) (hi imm)
  | csumIn => exact absurd (.inr (.inl rfl)) (hi 0)
  | buildRsp => obtain ⟨out, len, c, n, rfl⟩ := execBuildRsp_next_eq h; rfl

/-- Settles O43: a step that changes a result runs the word of a command that writes it. -/
theorem resultsLastUntilTheirNextCommand : Obligations.ResultsLastUntilTheirNextCommand := by
  intro s t h hreset
  obtain ⟨-, ⟨-, rfl⟩ | ⟨x, hx, hp⟩⟩ := step_next h
  · exact ⟨fun _ => ⟨rfl, rfl⟩, fun _ => rfl, fun _ => rfl⟩
  rcases perform_next hp with rfl | ⟨w, rfl, hw⟩ | ⟨hout, hlen, hcsum, herr⟩
  · exact absurd hx hreset
  · rcases runCommand_next hw with ⟨i, hd, he⟩ | ⟨-, rfl⟩
    · obtain rfl := encode_of_decode hd
      refine ⟨fun hbuild => ?_, fun hsum => ?_, fun hcmd => absurd hx (hcmd _)⟩
      · refine exec_keeps_out (s := s.advance) ?_ he
        rintro rfl
        exact hbuild hx
      · exact exec_keeps_csumAcc (s := s.advance) (fun imm hi => hsum i imm hi hx) he
    · exact ⟨fun _ => ⟨rfl, rfl⟩, fun _ => rfl, fun hcmd => absurd hx (hcmd w)⟩
  · exact ⟨fun _ => ⟨hout, hlen⟩, fun _ => hcsum, fun _ => herr⟩

/-! ### the host's inputs (R25, R26, R34 to R37) -/

/-- IN_BUF, IN_LEN, REQ_BUF, REQ_LEN, TS_VAL and TS_EXPLICIT are the same in two states. -/
def SameInputs (s t : State) : Prop :=
  t.inBuf = s.inBuf ∧ t.inLen = s.inLen ∧ t.reqBuf = s.reqBuf ∧ t.reqLen = s.reqLen ∧ t.tsVal = s.tsVal ∧
    t.tsExplicit = s.tsExplicit

/-- Every command keeps the host's inputs (R86, R102, R116). -/
theorem exec_keeps_inputs {i : Instr} {s t : State} (h : exec i s = .next t) : SameInputs s t := by
  cases i with
  | parseHdr => obtain ⟨hd, valid, c, rfl⟩ := execParseHdr_next_eq h; exact ⟨rfl, rfl, rfl, rfl, rfl, rfl⟩
  | csumClr | csumAdd imm => cases h; exact ⟨rfl, rfl, rfl, rfl, rfl, rfl⟩
  | csumIn => obtain ⟨bs, -, rfl⟩ := execCsumIn_next h; exact ⟨rfl, rfl, rfl, rfl, rfl, rfl⟩
  | buildRsp => obtain ⟨out, len, c, n, rfl⟩ := execBuildRsp_next_eq h; exact ⟨rfl, rfl, rfl, rfl, rfl, rfl⟩

/-- Every word run as a command keeps the host's inputs, the illegal ones too (R126). -/
theorem runCommand_keeps_inputs {w : Word} {s t : State} (h : runCommand w s = .next t) : SameInputs s t := by
  rcases runCommand_next h with ⟨i, -, he⟩ | ⟨-, rfl⟩
  · exact exec_keeps_inputs he
  · exact ⟨rfl, rfl, rfl, rfl, rfl, rfl⟩

/-- Settles O44: the two memories are the same lists, so they read alike. -/
theorem noCommandWritesTheHostsInputs : Obligations.NoCommandWritesTheHostsInputs := by
  intro w s t h
  obtain ⟨hin, hinLen, hreq, hreqLen, htsVal, hts⟩ := runCommand_keeps_inputs h
  exact ⟨fun i => by rw [hin], hinLen, fun i => by rw [hreq], hreqLen, htsVal, hts⟩

/-! ### written bytes stay written (R25, R34, R142) -/

/-- Every byte that is written in s is written in t. -/
def StaysWritten (s t : State) : Prop := ∀ e i, content s e i ≠ none → content t e i ≠ none

theorem StaysWritten.trans {s t u : State} (hst : StaysWritten s t) (htu : StaysWritten t u) : StaysWritten s u :=
  fun e i h => htu e i (hst e i h)

/-- Storing a byte unwrites none. -/
theorem Memory.read_write_ne_none {m : Memory} {i j : Nat} {b : Byte} (h : m.read j ≠ none) :
    (m.write i b).read j ≠ none := by
  rw [Memory.read_write]
  split
  · exact Option.some_ne_none b
  · exact h

/-- OUT_BUF has its 23 bytes whatever they are (R38), so only the two memories can lose a byte. -/
theorem staysWritten_of_memories {s t : State} (hin : ∀ i, s.inBuf.read i ≠ none → t.inBuf.read i ≠ none)
    (hreq : ∀ i, s.reqBuf.read i ≠ none → t.reqBuf.read i ≠ none) : StaysWritten s t := by
  intro e i h
  cases e with
  | inBuf => exact hin i h
  | reqBuf => exact hreq i h
  | outBuf =>
    have hi : i < 23 := by simpa [content] using h
    simp [content, hi]

theorem staysWritten_of_memories_eq {s t : State} (hin : t.inBuf = s.inBuf) (hreq : t.reqBuf = s.reqBuf) :
    StaysWritten s t :=
  staysWritten_of_memories (fun _ h => hin ▸ h) (fun _ h => hreq ▸ h)

theorem staysWritten_writeInBuf (s : State) (i : Nat) (b : Byte) : StaysWritten s (s.writeInBuf i b) :=
  staysWritten_of_memories (fun _ => Memory.read_write_ne_none) fun _ h => h

theorem staysWritten_writeReqBuf (s : State) (i : Nat) (b : Byte) : StaysWritten s (s.writeReqBuf i b) :=
  staysWritten_of_memories (fun _ h => h) fun _ => Memory.read_write_ne_none

/-- No input but reset makes a written byte unwritten again (R25, R34). -/
theorem perform_staysWritten {x : Input} {s t : State} (hx : x ≠ .reset) (h : perform x s = .next t) :
    StaysWritten s t := by
  match x with
  | .reset => exact absurd rfl hx
  | .access (.read a n) =>
    obtain ⟨tg, v, -, -, rfl⟩ := busRead_next h
    exact staysWritten_of_memories_eq rfl rfl
  | .access (.write a n v) =>
    rcases busWrite_next h with ⟨-, -, h⟩ | rfl | rfl | rfl | rfl | ⟨i, -, rfl⟩ | ⟨i, -, rfl⟩ | ⟨i, -, rfl⟩ | ⟨i, -, rfl⟩
    · obtain ⟨hin, -, hreq, -⟩ := runCommand_keeps_inputs h
      exact staysWritten_of_memories_eq hin hreq
    · exact staysWritten_of_memories_eq rfl rfl
    · exact staysWritten_of_memories_eq rfl rfl
    · exact staysWritten_of_memories_eq rfl rfl
    · exact staysWritten_of_memories_eq rfl rfl
    · exact staysWritten_writeInBuf s i _
    · exact staysWritten_writeReqBuf s i _
    · exact (((staysWritten_writeInBuf s i _).trans (staysWritten_writeInBuf _ (i + 1) _)).trans (staysWritten_writeInBuf _ (i + 2) _)).trans
        (staysWritten_writeInBuf _ (i + 3) _)
    · exact (((staysWritten_writeReqBuf s i _).trans (staysWritten_writeReqBuf _ (i + 1) _)).trans (staysWritten_writeReqBuf _ (i + 2) _)).trans
        (staysWritten_writeReqBuf _ (i + 3) _)

/-- Settles O45: a step is idle or performs an input other than reset. -/
theorem writtenBytesStayWrittenUntilReset : Obligations.WrittenBytesStayWrittenUntilReset := by
  intro s t e i h hreset
  obtain ⟨-, ⟨-, rfl⟩ | ⟨x, hx, hp⟩⟩ := step_next h
  · exact id
  · have hadvance : StaysWritten s s.advance := staysWritten_of_memories_eq rfl rfl
    exact hadvance.trans (perform_staysWritten (fun hr => hreset (hr ▸ hx)) hp) e i

/-! ### the invariant -/

/-- After the reset input, and so after reset, the block meets the invariant, for every list of the host and every index
inside it. -/
theorem inv_resetBlock {s : State} (hpc : s.pc ≤ s.program.length) : Inv s.resetBlock where
  inBuf_wf := .nil
  inBuf_bound := by simp
  reqBuf_wf := .nil
  reqBuf_bound := by simp
  inLen_le := Nat.zero_le _
  reqLen_le := Nat.zero_le _
  out := .inl ⟨rfl, rfl⟩
  header := fun _ => ⟨rfl, rfl, rfl, rfl, rfl⟩
  err_le := Nat.zero_le _
  pc_le := hpc

/-- Settles O47: the state after reset is left by the reset input as it is. -/
theorem resetMeetsTheInvariant : Obligations.ResetMeetsTheInvariant :=
  inv_resetBlock (s := State.reset) (Nat.le_refl 0)

/-- A memory inside a capacity stays so when a byte below the capacity is stored. -/
theorem Memory.write_bound {m : Memory} {cap i : Nat} {b : Byte} (h : ∀ c ∈ m, c.1 < cap) (hi : i < cap) :
    ∀ c ∈ m.write i b, c.1 < cap := by
  intro c hc
  rcases Memory.mem_write hc with rfl | hc
  · exact hi
  · exact h c hc

theorem inv_writeInBuf {s : State} (h : Inv s) {i : Nat} (hi : i < Config.inCap) (b : Byte) : Inv (s.writeInBuf i b) :=
  { h with
    inBuf_wf := Memory.write_wf h.inBuf_wf i b
    inBuf_bound := Memory.write_bound h.inBuf_bound hi }

theorem inv_writeReqBuf {s : State} (h : Inv s) {i : Nat} (hi : i < Config.reqCap) (b : Byte) :
    Inv (s.writeReqBuf i b) :=
  { h with
    reqBuf_wf := Memory.write_wf h.reqBuf_wf i b
    reqBuf_bound := Memory.write_bound h.reqBuf_bound hi }

/-- Every error code that is set is a produced one. -/
theorem inv_setErr {s : State} (h : Inv s) {c : BitVec 4} (hc : c.toNat ≤ 5) : Inv (s.setErr c) :=
  { h with err_le := hc }

/-- A header is set as valid, or cleared (R32). -/
theorem inv_setHeader {s : State} (h : Inv s) {hd : Header} {valid : Bool} (hv : valid = true ∨ hd = Header.zero) :
    Inv (s.setHeader hd valid) :=
  { h with
    header := by
      rintro rfl
      rcases hv with hv | rfl
      · cases hv
      · exact ⟨rfl, rfl, rfl, rfl, rfl⟩ }

/-- Every command keeps the invariant. -/
theorem exec_keeps_inv {i : Instr} {s t : State} (hs : Inv s) (h : exec i s = .next t) : Inv t := by
  cases i with
  | parseHdr =>
    rcases execParseHdr_next h with ⟨-, rfl⟩ | ⟨-, hd, -, rfl⟩
    · exact inv_setErr (inv_setHeader hs (.inr rfl)) (by decide)
    · exact inv_setErr (inv_setHeader hs (.inl rfl)) (by decide)
  | csumClr | csumAdd imm =>
    cases h
    exact { hs with err_le := Nat.zero_le 5 }
  | csumIn =>
    obtain ⟨bs, -, rfl⟩ := execCsumIn_next h
    exact { hs with err_le := Nat.zero_le 5 }
  | buildRsp =>
    have herr : t.err.toNat ≤ 5 := exec_next_err h ▸ errCode_toNat_le _
    have hout := (execBuildRsp_next_out h).imp_right fun ⟨hlen, hframe, _⟩ => And.intro hlen hframe
    obtain ⟨out, len, c, n, rfl⟩ := execBuildRsp_next_eq h
    exact { hs with out := hout, err_le := herr }

/-- Every input keeps the invariant. -/
theorem perform_keeps_inv {x : Input} {s t : State} (hs : Inv s) (h : perform x s = .next t) : Inv t := by
  match x with
  | .reset =>
    cases h
    exact inv_resetBlock hs.pc_le
  | .access (.read a n) =>
    obtain ⟨tg, v, -, -, rfl⟩ := busRead_next h
    exact { hs with }
  | .access (.write a n v) =>
    rcases busWrite_next h with ⟨-, -, h⟩ | rfl | rfl | rfl | rfl | ⟨i, hi, rfl⟩ | ⟨i, hi, rfl⟩ | ⟨i, hi, rfl⟩ | ⟨i, hi, rfl⟩
    · rcases runCommand_next h with ⟨i, -, he⟩ | ⟨-, rfl⟩
      · exact exec_keeps_inv hs he
      · exact inv_setErr hs (by decide)
    · exact { hs with inLen_le := Nat.min_le_right .. }
    · exact { hs with reqLen_le := Nat.min_le_right .. }
    · exact { hs with }
    · exact { hs with }
    · exact inv_writeInBuf hs hi _
    · exact inv_writeReqBuf hs hi _
    · have h0 := inv_writeInBuf hs (i := i) (by omega) (byteOf v 0)
      have h1 := inv_writeInBuf h0 (i := i + 1) (by omega) (byteOf v 1)
      have h2 := inv_writeInBuf h1 (i := i + 2) (by omega) (byteOf v 2)
      exact inv_writeInBuf h2 hi (byteOf v 3)
    · have h0 := inv_writeReqBuf hs (i := i) (by omega) (byteOf v 0)
      have h1 := inv_writeReqBuf h0 (i := i + 1) (by omega) (byteOf v 1)
      have h2 := inv_writeReqBuf h1 (i := i + 2) (by omega) (byteOf v 2)
      exact inv_writeReqBuf h2 hi (byteOf v 3)

/-- Settles O48: the index moves past an input of the list, so not past its end, and the input keeps the invariant. -/
theorem stepKeepsTheInvariant : Obligations.StepKeepsTheInvariant := by
  intro s t hs h
  obtain ⟨-, ⟨-, rfl⟩ | ⟨x, ⟨-, hx⟩, hp⟩⟩ := step_next h
  · exact hs
  · have hpc : s.pc < s.program.length := (List.getElem?_eq_some_iff.1 hx).1
    exact perform_keeps_inv (s := s.advance) { hs with pc_le := hpc } hp

end Sys2Proof.Machine
end
